-- ==== Sys2Proof/Word.lean ====
section
/-! DEFINITION. The words of RHAT-PROTO and the names of its small fixed sets (spec/00_scope.md R9). -/

namespace Sys2Proof

/-- `u8` (R9). -/
abbrev Byte := BitVec 8

/-- The level of a line: Low is bit 0 and High is bit 1 on DAT (R9). -/
inductive Level where
  | low
  | high
deriving DecidableEq, Repr, Inhabited

/-- The opposite level: `CS_INACTIVE = ¬CS_ACTIVE` (92_eei_decisions D11). -/
def Level.not : Level → Level
  | .low => .high
  | .high => .low

/-- The level that carries a bit on DAT (R9). -/
def Level.ofBit : Bool → Level
  | false => .low
  | true => .high

/-- The bit that a level of DAT carries (R9). -/
def Level.bit : Level → Bool
  | .low => false
  | .high => true

/-- The three output lines of LedChainProtocol (10_state R25). -/
inductive Line where
  | dat
  | clk
  | cs
deriving DecidableEq, Repr, Inhabited

/-- The two drivers, each with its own lifecycle (00_scope R4). -/
inductive Driver where
  | led
  | disp
deriving DecidableEq, Repr, Inhabited

/-- The four blink frequencies (10_state R18). -/
inductive BlinkFreq where
  | off
  | hz2
  | hz1
  | hz05
deriving DecidableEq, Repr, Inhabited

/-- One pixel record: three colour channels and a quantized brightness level (10_state R14). -/
structure Pixel where
  r : Byte
  g : Byte
  b : Byte
  br : BitVec 5
deriving DecidableEq, Repr, Inhabited

/-- A collaborator's error value, of which the source says only that it is carried along
(60_exceptions R124, R134). DESIGN CHOICE, safe: a tag, log 14. -/
abbrev CollabError := Nat

/-- What a collaborator call that may fail answers (20_memory R36, R37). -/
inductive Reply where
  | ok
  | error (e : CollabError)
deriving DecidableEq, Repr, Inhabited

end Sys2Proof
end

