-- ==== Sys2Proof/Syntax.lean ====
section
/-! DEFINITION. The instructions of RHAT-PROTO: one constructor per row of spec/opcode_table.json
(17 host operations, 30_encoding R54; 7 wire formats, R60 to R69), the operand records a host request
carries (R53, R55), and the requests themselves. -/

namespace Sys2Proof

/-- The normalized LED brightness operand, `bright : Q` (30_encoding R55): a rational as numerator and
denominator, or a binary64 datum, which denotes a rational, a NaN or an infinity
(92_eei_decisions D2). DESIGN CHOICE, safe: log 11. -/
inductive Brightness where
  | ratio (num : Int) (den : Nat)
  | f64 (bits : BitVec 64)
deriving DecidableEq, Repr

/-- The instructions. The first 17 are the host operations, the last 7 the wire formats. -/
inductive Instr where
  | ledSetup
  | ledSetSimulation (v : Bool)
  | ledSetPixel (index : Nat) (r g b : Byte) (bright : Brightness)
  | ledSetAll (r g b : Byte) (bright : Brightness)
  | ledSetBrightness (bright : Brightness)
  | ledClear
  | ledShow
  | ledExit
  | dispSetup
  | dispSetSimulation (v : Bool)
  | dispSetBlink (code : Byte)
  | dispSetBrightness (level : Byte)
  | dispWriteDisplay
  | dispSetDigitRaw (pos : Int) (mask : BitVec 16)
  | dispSetDecimal (pos : Int) (on : Bool)
  | dispSetDigit (pos : Int) (ch : Char) (decimal : Bool)
  | dispPrintStr (text : List Char) (justifyRight : Bool)
  | ledSof
  | ledPixelWord (br : BitVec 5) (b g r : Byte)
  | ledEof
  | i2cData (payload : Vector Byte 8)
  | i2cOscOn
  | i2cBlink (f : BlinkFreq)
  | i2cDim (level : BitVec 4)
deriving DecidableEq, Repr

/-- The host operations are the instructions a host can ask for (30_encoding R54); the others are wire
formats. -/
def Instr.isHost : Instr → Bool
  | .ledSetup | .ledSetSimulation _ | .ledSetPixel .. | .ledSetAll .. | .ledSetBrightness _
  | .ledClear | .ledShow | .ledExit => true
  | .dispSetup | .dispSetSimulation _ | .dispSetBlink _ | .dispSetBrightness _
  | .dispWriteDisplay | .dispSetDigitRaw .. | .dispSetDecimal .. | .dispSetDigit ..
  | .dispPrintStr .. => true
  | .ledSof | .ledPixelWord .. | .ledEof => false
  | .i2cData _ | .i2cOscOn | .i2cBlink _ | .i2cDim _ => false

/-- The driver whose instruction it is (00_scope R4, R5). -/
def Instr.driver : Instr → Driver
  | .ledSetup | .ledSetSimulation _ | .ledSetPixel .. | .ledSetAll .. | .ledSetBrightness _
  | .ledClear | .ledShow | .ledExit => .led
  | .dispSetup | .dispSetSimulation _ | .dispSetBlink _ | .dispSetBrightness _
  | .dispWriteDisplay | .dispSetDigitRaw .. | .dispSetDecimal .. | .dispSetDigit ..
  | .dispPrintStr .. => .disp
  | .ledSof | .ledPixelWord .. | .ledEof => .led
  | .i2cData _ | .i2cOscOn | .i2cBlink _ | .i2cDim _ => .disp

/-- The type of one field of an operand record (30_encoding R55). -/
inductive OperandKind where
  | bool
  | nat
  | int
  | u8
  | u16
  | bright
  | char
  | text
deriving DecidableEq, Repr

/-- One field of an operand record, with its type (30_encoding R53, R55). -/
inductive Operand where
  | bool (v : Bool)
  | nat (v : Nat)
  | int (v : Int)
  | u8 (v : Byte)
  | u16 (v : BitVec 16)
  | bright (v : Brightness)
  | char (v : Char)
  | text (v : List Char)
deriving DecidableEq, Repr

/-- What stands before the block, undecoded: a host operation as its selector byte and operand record
(30_encoding R53); or one unit of a wire format, a group of LED bits in the order they are sent
(R59) or one bus write (R65). DESIGN CHOICE: log 1, log 2. -/
inductive Request where
  | host (selector : Byte) (operands : List Operand)
  | led (bits : List Bool)
  | i2c (cmd : Byte) (payload : List Byte)
deriving DecidableEq, Repr

/-- Whether a request comes from the host, and so is a pair (selector, operands) (30_encoding R53). -/
def Request.isHost : Request → Bool
  | .host _ _ => true
  | .led _ => false
  | .i2c _ _ => false

/-- Why a request decodes to no instruction (30_encoding R56): a selector that spells no operation
(`REFUSED(selector)`), a record of the wrong type, or a wire unit of no format of R59 to R69. -/
inductive DecodeError where
  | unknownSelector (selector : Byte)
  | wrongOperands (selector : Byte)
  | unknownLedUnit
  | unknownBusWrite (cmd : Byte)
deriving DecidableEq, Repr

end Sys2Proof
end

