-- ==== Sys2Proof/Config.lean ====
section
/-! DEFINITION. What an implementation fixes (the open parameters of spec/00_scope.md R8, as plain data
that State carries unchanged, so that every statement over all states holds for every value of them), and
the free values of the environment's draws, which are opaque. -/

namespace Sys2Proof

/-- `CTL_ORDER` (42_display_controller R104). -/
inductive CtlOrder where
  | storeFirst
  | setupFirst
deriving DecidableEq, Repr

/-- `PRINT_RIGHT_LONG` (43_glyph R118, 92_eei_decisions D24). -/
inductive PrintRightLong where
  | clip
  | refuse
deriving DecidableEq, Repr

/-- `QUANT`: the exact quantizer or its binary64 form (41_led_chain R88, 92_eei_decisions D4). -/
inductive QuantMode where
  | exact
  | binary64
deriving DecidableEq, Repr

/-- One value for each blink frequency. `BLINK_CODE` gives each a 2-bit field (30_encoding R68).
`BLINK_DECODE`, an injective partial map onto the four frequencies, gives each a host code
(92_eei_decisions D19). -/
structure PerBlink (α : Type) where
  off : α
  hz2 : α
  hz1 : α
  hz05 : α
deriving DecidableEq, Repr

/-- The value a table holds for a frequency. -/
def PerBlink.get {α : Type} (t : PerBlink α) : BlinkFreq → α
  | .off => t.off
  | .hz2 => t.hz2
  | .hz1 => t.hz1
  | .hz05 => t.hz05

/-- The open parameters (00_scope R8), each fixed for the run (70_reset_and_hazards R146). -/
structure Config where
  /-- `PIN_DAT`, `PIN_CLK`, `PIN_CS`: line numbers (10_state R29). -/
  pinDat : Nat
  pinClk : Nat
  pinCs : Nat
  /-- `CS_ACTIVE` (30_encoding R64). -/
  csActive : Level
  /-- `T_SETTLE`, in a unit of time the model does not name (70_reset_and_hazards R158; log 13). -/
  tSettle : Nat
  /-- `CMD_OSC_ON` (30_encoding R67). -/
  cmdOscOn : Byte
  /-- `CMD_BLINK_BASE` (30_encoding R68). -/
  cmdBlinkBase : Byte
  /-- `CMD_DIM_BASE` (30_encoding R69). -/
  cmdDimBase : Byte
  /-- `BLINK_CODE` (30_encoding R68). -/
  blinkCode : PerBlink (BitVec 2)
  /-- `BLINK_DECODE`, as the host code of each frequency (42_display_controller R102; log 22). -/
  blinkHost : PerBlink Byte
  /-- `GLYPH`: entry `k` is the mask of the character of code `32 + k` (43_glyph R110, R112). -/
  glyph : Vector (BitVec 16) 95
  /-- `PIXEL_INIT` (10_state R16). -/
  pixelInit : Vector Pixel 7
  /-- `SEG_INIT` (10_state R17). -/
  segInit : Vector Byte 8
  /-- `BLINK_INIT` (10_state R18). -/
  blinkInit : BlinkFreq
  /-- `DBR_INIT` (10_state R19). -/
  dbrInit : BitVec 4
  /-- `SIM_LED_INIT` (10_state R23). -/
  simLedInit : Bool
  /-- `SIM_DISP_INIT` (10_state R23). -/
  simDispInit : Bool
  /-- `CTL_ORDER` (42_display_controller R104). -/
  ctlOrder : CtlOrder
  /-- `PRINT_RIGHT_LONG` (43_glyph R118). -/
  printRightLong : PrintRightLong
  /-- `QUANT` (41_led_chain R88). -/
  quant : QuantMode
deriving DecidableEq, Repr

/-- The line's number, which `PinClaim` hands to PinAccess (00_scope R10). -/
def Config.pinOf (cfg : Config) : Line → Nat
  | .dat => cfg.pinDat
  | .clk => cfg.pinClk
  | .cs => cfg.pinCs

/-- The parameters the spec allows: a dimming base with a clear low nibble (30_encoding R69), an injective
`BLINK_DECODE` (92_eei_decisions D19), and a glyph table that keeps the source's laws (43_glyph R112). -/
abbrev Config.Legal (cfg : Config) : Prop :=
  cfg.cmdDimBase.extractLsb' 0 4 = 0#4 ∧
  [cfg.blinkHost.off, cfg.blinkHost.hz2, cfg.blinkHost.hz1, cfg.blinkHost.hz05].Nodup ∧
  cfg.glyph[65 - 32] = 0x00F7#16 ∧ cfg.glyph[32 - 32] = 0x0000#16 ∧
  cfg.glyph[84 - 32].getLsbD 14 = false ∧ cfg.glyph[69 - 32].getLsbD 14 = false ∧
  cfg.glyph[83 - 32].getLsbD 14 = false

/-- FREE VALUE: the environment's answer to the block's `n`-th `PinClaim`, once no scripted answer is left
(92_eei_decisions D31; log 6). No body: nothing is known of it. -/
opaque Config.freeClaimReply : Nat → Reply

/-- FREE VALUE: the level the environment draws for CS at its claim, once no scripted draw is left
(92_eei_decisions D12; log 6). -/
opaque Config.freeCsLevel : Nat → Level

/-- FREE VALUE: the environment's answer to the block's `n`-th `BusOpen` or `BusWrite`, once no scripted
answer is left (92_eei_decisions D31; log 6). -/
opaque Config.freeBusReply : Nat → Reply

end Sys2Proof
end

