-- ==== Sys2Proof/Machine/Params.lean ====
section
/-! DEFINITION. The values the model gives the open parameters at `State.reset` (spec/00_scope.md R8). The spec offers
some of them [from general knowledge, not in source]: those are PRESUMED (log 5). The others are DESIGN CHOICE (log 4).
No statement rests on them: State carries the parameters as data. -/

namespace Sys2Proof.Machine

/-- The masks of the codes 32 to 47 (93_implementation_defined G6). PRESUMED, log 5. -/
def glyphs32 : Vector (BitVec 16) 16 := #v[
  0x0000#16, 0x0006#16, 0x0220#16, 0x12CE#16, 0x12ED#16, 0x0C24#16, 0x235D#16, 0x0400#16,
  0x2400#16, 0x0900#16, 0x3FC0#16, 0x12C0#16, 0x0800#16, 0x00C0#16, 0x0000#16, 0x0C00#16]

/-- The masks of the codes 48 to 63 (93_implementation_defined G6). PRESUMED, log 5. -/
def glyphs48 : Vector (BitVec 16) 16 := #v[
  0x0C3F#16, 0x0006#16, 0x00DB#16, 0x008F#16, 0x00E6#16, 0x2069#16, 0x00FD#16, 0x0007#16,
  0x00FF#16, 0x00EF#16, 0x1200#16, 0x0A00#16, 0x2400#16, 0x00C8#16, 0x0900#16, 0x1083#16]

/-- The masks of the codes 64 to 79 (93_implementation_defined G6). PRESUMED, log 5. -/
def glyphs64 : Vector (BitVec 16) 16 := #v[
  0x02BB#16, 0x00F7#16, 0x128F#16, 0x0039#16, 0x120F#16, 0x00F9#16, 0x0071#16, 0x00BD#16,
  0x00F6#16, 0x1209#16, 0x001E#16, 0x2470#16, 0x0038#16, 0x0536#16, 0x2136#16, 0x003F#16]

/-- The masks of the codes 80 to 95 (93_implementation_defined G6). PRESUMED, log 5. -/
def glyphs80 : Vector (BitVec 16) 16 := #v[
  0x00F3#16, 0x203F#16, 0x20F3#16, 0x00ED#16, 0x1201#16, 0x003E#16, 0x0C30#16, 0x2836#16,
  0x2D00#16, 0x1500#16, 0x0C09#16, 0x0039#16, 0x2100#16, 0x000F#16, 0x0C03#16, 0x0008#16]

/-- The masks of the codes 96 to 111 (93_implementation_defined G6). PRESUMED, log 5. -/
def glyphs96 : Vector (BitVec 16) 16 := #v[
  0x0100#16, 0x1058#16, 0x2078#16, 0x00D8#16, 0x088E#16, 0x0858#16, 0x0071#16, 0x048E#16,
  0x1070#16, 0x1000#16, 0x000E#16, 0x3600#16, 0x0030#16, 0x10D4#16, 0x1050#16, 0x00DC#16]

/-- The masks of the codes 112 to 126 (93_implementation_defined G6). PRESUMED, log 5. -/
def glyphs112 : Vector (BitVec 16) 15 := #v[
  0x0170#16, 0x0486#16, 0x0050#16, 0x2088#16, 0x0078#16, 0x001C#16, 0x2004#16, 0x2814#16,
  0x28C0#16, 0x200C#16, 0x0848#16, 0x0949#16, 0x1200#16, 0x2489#16, 0x0520#16]

/-- The candidate glyph table (93_implementation_defined G6). PRESUMED, log 5; the source itself fixes `'A'`, `' '` and
bit 14 of `'T'`, `'E'` and `'S'` (43_glyph R112). -/
def candidateGlyphs : Vector (BitVec 16) 95 :=
  glyphs32 ++ glyphs48 ++ glyphs64 ++ glyphs80 ++ glyphs96 ++ glyphs112

/-- Every open parameter at the value `State.reset` uses (00_scope R8). -/
def defaultConfig : Config where
  -- offered by the spec from general knowledge: PRESUMED, log 5
  pinDat := 10
  pinClk := 11
  pinCs := 8
  csActive := .low
  cmdOscOn := 0x21#8
  cmdBlinkBase := 0x81#8
  cmdDimBase := 0xE0#8
  blinkCode := { off := 0#2, hz2 := 1#2, hz1 := 2#2, hz05 := 3#2 }
  glyph := candidateGlyphs
  -- the defaults of the spec's own decisions D19, D21, D24, D3
  blinkHost := { off := 0#8, hz2 := 1#8, hz1 := 2#8, hz05 := 3#8 }
  ctlOrder := .storeFirst
  printRightLong := .clip
  quant := .exact
  -- no value in the spec: DESIGN CHOICE, log 4
  tSettle := 0
  pixelInit := Vector.replicate 7 { r := 0#8, g := 0#8, b := 0#8, br := 0#5 }
  segInit := Vector.replicate 8 0#8
  blinkInit := .off
  dbrInit := 0#4
  simLedInit := false
  simDispInit := false

end Sys2Proof.Machine
end

