-- ==== Sys2Proof/WellFormed.lean ====
section
/-! DEFINITION. Which terms of `Instr` stand for an instruction. The operand types carry every width
(30_encoding R55), so the one check left is that a brightness is a rational: its denominator is not 0. -/

namespace Sys2Proof

/-- A brightness operand of the type R55 gives it: a rational, or any binary64 datum. -/
def Brightness.wf : Brightness → Bool
  | .ratio _ den => den != 0
  | .f64 _ => true

/-- Well-formed instructions. A value that the operation itself rejects (a brightness of 3/2, a level of
16) is well-formed: it faults when it runs (30_encoding R73). -/
def Instr.wf : Instr → Bool
  | .ledSetPixel _ _ _ _ bright => bright.wf
  | .ledSetAll _ _ _ bright => bright.wf
  | .ledSetBrightness bright => bright.wf
  | .ledSetup | .ledSetSimulation _ | .ledClear | .ledShow | .ledExit => true
  | .dispSetup | .dispSetSimulation _ | .dispSetBlink _ | .dispSetBrightness _
  | .dispWriteDisplay | .dispSetDigitRaw .. | .dispSetDecimal .. | .dispSetDigit ..
  | .dispPrintStr .. => true
  | .ledSof | .ledPixelWord .. | .ledEof => true
  | .i2cData _ | .i2cOscOn | .i2cBlink _ | .i2cDim _ => true

end Sys2Proof
end

