-- ==== Sys2Proof/Decode.lean ====
section
/-! DEFINITION. The two kinds of encodings (spec/30_encoding.md): host operations, and the wire formats of the LED frame and
of the bus writes. The decoder is total and rejects by name; the encoder after it is written from the same tables. -/

namespace Sys2Proof

/-! ## Bits and command bytes -/

/-- The bits of a word, most significant first, the order they are sent in (R43, R94). -/
def bitsMsb {n : Nat} (v : BitVec n) : List Bool :=
  (List.range n).map fun k => v.getMsbD k

/-- The number that a list of bits, most significant first, writes. -/
def natOfBits (bits : List Bool) : Nat :=
  bits.foldl (fun acc b => 2 * acc + b.toNat) 0

/-- `ctrl(br) = 0xE0 | zext_8(br)`, the control byte of a pixel word (R62). -/
def ctrlByte (br : BitVec 5) : Byte := 0xE0#8 ||| br.setWidth 8

/-- The pixel word `{0b111, br, b, g, r}` (R61). -/
def pixelWord (br : BitVec 5) (b g r : Byte) : BitVec 32 :=
  0b111#3 ++ br ++ b ++ g ++ r

/-- The command byte of the buffer flush, `CMD_DATA` (R66). -/
def cmdData : Byte := 0x00#8

/-- `blinkCmd(f) = CMD_BLINK_BASE | (BLINK_CODE(f) << 1)` (R68). -/
def blinkCmd (cfg : Config) (f : BlinkFreq) : Byte :=
  cfg.cmdBlinkBase ||| ((cfg.blinkCode.get f).setWidth 8 <<< 1)

/-- `dimCmd(l) = CMD_DIM_BASE | zext_8(l)` (R69). -/
def dimCmd (cfg : Config) (level : BitVec 4) : Byte :=
  cfg.cmdDimBase ||| level.setWidth 8

/-- The parameters under which a command byte tells its format: no two of the formats R66 to R69 share a byte, and the four
blink commands differ. R76 says a receiver tells display commands apart only by the command byte. -/
abbrev Config.CommandsDistinct (cfg : Config) : Prop :=
  ([cmdData, cfg.cmdOscOn, blinkCmd cfg .off, blinkCmd cfg .hz2, blinkCmd cfg .hz1, blinkCmd cfg .hz05]).Nodup ∧
  cfg.cmdDimBase &&& 0x0F#8 = 0#8 ∧
  ∀ c ∈ [cmdData, cfg.cmdOscOn, blinkCmd cfg .off, blinkCmd cfg .hz2, blinkCmd cfg .hz1, blinkCmd cfg .hz05],
    c &&& 0xF0#8 ≠ cfg.cmdDimBase

/-! ## The selector map -/

/-- One row of the selector map (R54): selector, mnemonic, the types of the operand record, and the operation a record of
those types spells. -/
structure HostRow where
  selector : Byte
  mnemonic : String
  kinds : List OperandKind
  build : List Operand → Option Instr

/-- A brightness field of the record is a rational (R55); anything else is of the wrong type (R56). -/
def guardBright (bright : Brightness) (i : Instr) : Option Instr :=
  if bright.wf then some i else none

/-- The rows of LedChainProtocol (R54). -/
def ledRows : List HostRow := [
  { selector := 0x01#8, mnemonic := "LED.SETUP", kinds := [],
    build := fun | [] => some .ledSetup | _ => none },
  { selector := 0x02#8, mnemonic := "LED.SET_SIMULATION", kinds := [.bool],
    build := fun | [.bool v] => some (.ledSetSimulation v) | _ => none },
  { selector := 0x10#8, mnemonic := "LED.SET_PIXEL", kinds := [.nat, .u8, .u8, .u8, .bright],
    build := fun
      | [.nat index, .u8 r, .u8 g, .u8 b, .bright q] => guardBright q (.ledSetPixel index r g b q)
      | _ => none },
  { selector := 0x11#8, mnemonic := "LED.SET_ALL", kinds := [.u8, .u8, .u8, .bright],
    build := fun | [.u8 r, .u8 g, .u8 b, .bright q] => guardBright q (.ledSetAll r g b q) | _ => none },
  { selector := 0x12#8, mnemonic := "LED.SET_BRIGHTNESS", kinds := [.bright],
    build := fun | [.bright q] => guardBright q (.ledSetBrightness q) | _ => none },
  { selector := 0x13#8, mnemonic := "LED.CLEAR", kinds := [],
    build := fun | [] => some .ledClear | _ => none },
  { selector := 0x14#8, mnemonic := "LED.SHOW", kinds := [],
    build := fun | [] => some .ledShow | _ => none },
  { selector := 0x15#8, mnemonic := "LED.EXIT", kinds := [],
    build := fun | [] => some .ledExit | _ => none }]

/-- The rows of SegmentDisplayProtocol (R54). -/
def dispRows : List HostRow := [
  { selector := 0x21#8, mnemonic := "DISP.SETUP", kinds := [],
    build := fun | [] => some .dispSetup | _ => none },
  { selector := 0x22#8, mnemonic := "DISP.SET_SIMULATION", kinds := [.bool],
    build := fun | [.bool v] => some (.dispSetSimulation v) | _ => none },
  { selector := 0x30#8, mnemonic := "DISP.SET_BLINK", kinds := [.u8],
    build := fun | [.u8 code] => some (.dispSetBlink code) | _ => none },
  { selector := 0x31#8, mnemonic := "DISP.SET_BRIGHTNESS", kinds := [.u8],
    build := fun | [.u8 level] => some (.dispSetBrightness level) | _ => none },
  { selector := 0x32#8, mnemonic := "DISP.WRITE_DISPLAY", kinds := [],
    build := fun | [] => some .dispWriteDisplay | _ => none },
  { selector := 0x40#8, mnemonic := "DISP.SET_DIGIT_RAW", kinds := [.int, .u16],
    build := fun | [.int pos, .u16 mask] => some (.dispSetDigitRaw pos mask) | _ => none },
  { selector := 0x41#8, mnemonic := "DISP.SET_DECIMAL", kinds := [.int, .bool],
    build := fun | [.int pos, .bool on] => some (.dispSetDecimal pos on) | _ => none },
  { selector := 0x42#8, mnemonic := "DISP.SET_DIGIT", kinds := [.int, .char, .bool],
    build := fun | [.int pos, .char ch, .bool dp] => some (.dispSetDigit pos ch dp) | _ => none },
  { selector := 0x43#8, mnemonic := "DISP.PRINT_STR", kinds := [.text, .bool],
    build := fun | [.text text, .bool jr] => some (.dispPrintStr text jr) | _ => none }]

/-- The selector map, whole: "all the selectors the block admits" (R54). -/
def hostRows : List HostRow := ledRows ++ dispRows

/-- The row of a selector, by exact match with mask `0xFF` (R53). -/
def hostRow? (selector : Byte) : Option HostRow :=
  hostRows.find? fun row => row.selector == selector

/-! ## The decoder -/

/-- A host operation: the selector, then the record its row lists (R53, R56). -/
def decodeHost (selector : Byte) (operands : List Operand) : Except DecodeError Instr :=
  match hostRow? selector with
  | none => .error (.unknownSelector selector)
  | some row =>
    match row.build operands with
    | some i => .ok i
    | none => .error (.wrongOperands selector)

/-- A unit of the LED frame: 32 zero bits (SOF, R60), a 32-bit word with `111` first (R61), or 36 zero bits (EOF, R63). -/
def decodeLed (bits : List Bool) : Except DecodeError Instr :=
  if bits = List.replicate 32 false then .ok .ledSof
  else if bits = List.replicate 36 false then .ok .ledEof
  else if bits.length = 32 ∧ bits.take 3 = [true, true, true] then
    let w := BitVec.ofNat 32 (natOfBits bits)
    .ok (.ledPixelWord (w.extractLsb' 24 5) (w.extractLsb' 16 8) (w.extractLsb' 8 8) (w.extractLsb' 0 8))
  else .error .unknownLedUnit

/-- The frequency whose blink command the byte is (R68). -/
def blinkOfCmd (cfg : Config) (cmd : Byte) : Option BlinkFreq :=
  [BlinkFreq.off, .hz2, .hz1, .hz05].find? fun f => blinkCmd cfg f == cmd

/-- A bus write: a buffer flush with its 8 bytes, or a command with an empty payload (R65 to R69). -/
def decodeI2c (cfg : Config) (cmd : Byte) (payload : List Byte) : Except DecodeError Instr :=
  match payload with
  | [a0, a1, a2, a3, a4, a5, a6, a7] =>
    if cmd = cmdData then .ok (.i2cData #v[a0, a1, a2, a3, a4, a5, a6, a7]) else .error (.unknownBusWrite cmd)
  | [] =>
    if cmd = cfg.cmdOscOn then .ok .i2cOscOn
    else
      match blinkOfCmd cfg cmd with
      | some f => .ok (.i2cBlink f)
      | none =>
        if cmd &&& 0xF0#8 = cfg.cmdDimBase then .ok (.i2cDim (cmd.extractLsb' 0 4))
        else .error (.unknownBusWrite cmd)
  | _ => .error (.unknownBusWrite cmd)

/-- The decoder, total: every request is an instruction or a rejection by name (R56). -/
def decode (cfg : Config) : Request → Except DecodeError Instr
  | .host selector operands => decodeHost selector operands
  | .led bits => decodeLed bits
  | .i2c cmd payload => decodeI2c cfg cmd payload

/-! ## The encoder -/

/-- The request that spells an instruction (R54, R60 to R69). -/
def encode (cfg : Config) : Instr → Request
  | .ledSetup => .host 0x01#8 []
  | .ledSetSimulation v => .host 0x02#8 [.bool v]
  | .ledSetPixel index r g b q => .host 0x10#8 [.nat index, .u8 r, .u8 g, .u8 b, .bright q]
  | .ledSetAll r g b q => .host 0x11#8 [.u8 r, .u8 g, .u8 b, .bright q]
  | .ledSetBrightness q => .host 0x12#8 [.bright q]
  | .ledClear => .host 0x13#8 []
  | .ledShow => .host 0x14#8 []
  | .ledExit => .host 0x15#8 []
  | .dispSetup => .host 0x21#8 []
  | .dispSetSimulation v => .host 0x22#8 [.bool v]
  | .dispSetBlink code => .host 0x30#8 [.u8 code]
  | .dispSetBrightness level => .host 0x31#8 [.u8 level]
  | .dispWriteDisplay => .host 0x32#8 []
  | .dispSetDigitRaw pos mask => .host 0x40#8 [.int pos, .u16 mask]
  | .dispSetDecimal pos on => .host 0x41#8 [.int pos, .bool on]
  | .dispSetDigit pos ch dp => .host 0x42#8 [.int pos, .char ch, .bool dp]
  | .dispPrintStr text jr => .host 0x43#8 [.text text, .bool jr]
  | .ledSof => .led (List.replicate 32 false)
  | .ledPixelWord br b g r => .led (bitsMsb (pixelWord br b g r))
  | .ledEof => .led (List.replicate 36 false)
  | .i2cData payload => .i2c cmdData payload.toList
  | .i2cOscOn => .i2c cfg.cmdOscOn []
  | .i2cBlink f => .i2c (blinkCmd cfg f) []
  | .i2cDim level => .i2c (dimCmd cfg level) []

/-! ## The opcode table's words -/

/-- The field of a record whose bits are all 0: 0, false, the rational 0/1, character 0, the empty text. -/
def OperandKind.zero : OperandKind → Operand
  | .bool => .bool false
  | .nat => .nat 0
  | .int => .int 0
  | .u8 => .u8 0#8
  | .u16 => .u16 0#16
  | .bright => .bright (.ratio 0 1)
  | .char => .char (Char.ofNat 0)
  | .text => .text []

/-- The payload of zeros that a command byte takes: 8 bytes for the buffer flush, none for a command (R75). -/
def zeroPayload (cmd : Byte) : List Byte :=
  if cmd = cmdData then List.replicate 8 0#8 else []

/-- Whether the byte is a command byte of the wire formats under the table's values (R66 to R69). -/
def isBusCmd (cmd : Byte) : Bool :=
  match decodeI2c Machine.defaultConfig cmd (zeroPayload cmd) with
  | .ok _ => true
  | .error _ => false

/-- The request that a row of spec/opcode_table.json stands for, given its bits as the table numbers them: a byte is a host
selector (with a record of zeros) where R54 lists it, else a bus command byte (with a payload of zeros); 32 bits and 36 bits
are units of the LED frame, sent from the highest bit. DESIGN CHOICE, log 3. -/
def tableRequest (nbits w : Nat) : Request :=
  if nbits ≤ 8 then
    let byte := BitVec.ofNat 8 w
    match hostRow? byte with
    | some row => .host byte (row.kinds.map OperandKind.zero)
    | none => if isBusCmd byte then .i2c byte (zeroPayload byte) else .host byte []
  else if nbits ≤ 32 then .led (bitsMsb (BitVec.ofNat 32 w))
  else .led (bitsMsb (BitVec.ofNat 36 w))

/-- The instruction the decoder reads from a table row's bits (log 3). -/
def decodeTableWord (nbits w : Nat) : Option Instr :=
  match decode Machine.defaultConfig (tableRequest nbits w) with
  | .ok i => some i
  | .error _ => none

end Sys2Proof
end

