-- ==== Sys2Proof/Machine/State.lean ====
section
/-! DEFINITION. The state of RHAT-PROTO (spec/10_state.md), its reset, and the reasons a step can stop. -/

namespace Sys2Proof.Machine

/-- A line: `Unclaimed` or `Driven(Level)` (10_state, R25). -/
inductive LineState where
  | unclaimed
  | driven (level : Level)
deriving DecidableEq, Repr

/-- The three output lines (R25). -/
structure Lines where
  dat : LineState
  clk : LineState
  cs : LineState
deriving DecidableEq, Repr

/-- The I2C handle: `Closed` or `Open(addr : u7)` (R26). -/
inductive BusState where
  | closed
  | opened (addr : BitVec 7)
deriving DecidableEq, Repr

/-- ControllerState (R18, R19, R20). -/
structure Ctl where
  blink : BlinkFreq
  br : BitVec 4
  initialized : Bool
deriving DecidableEq, Repr

/-- LifecycleFlags of one driver (R21, R22, R23). -/
structure LifecycleFlags where
  isSetup : Bool
  sim : Bool
deriving DecidableEq, Repr

/-- One event of the output history (R27; 00_scope R10). Each but `settle` is one collaborator call
(00_scope R12). -/
inductive Event where
  | claim (line : Line)
  | pin (line : Line) (level : Level)
  | settle
  | busOpen
  | addr (a : BitVec 7)
  | write (cmd : Byte) (payload : List Byte)
deriving DecidableEq, Repr

/-- The fault codes with their recorded info (60_exceptions R124). -/
inductive FaultInfo where
  /-- 1 `PIN_CLAIM_FAILED`: the line and the collaborator's error. -/
  | pinClaimFailed (line : Line) (e : CollabError)
  /-- 2 `BUS_OPEN_FAILED`: the collaborator's error. -/
  | busOpenFailed (e : CollabError)
  /-- 3 `BUS_WRITE_FAILED`: the command byte and the collaborator's error. -/
  | busWriteFailed (cmd : Byte) (e : CollabError)
  /-- 4 `LED_BRIGHTNESS_RANGE`: the brightness operand. -/
  | ledBrightnessRange (bright : Brightness)
  /-- 5 `BLINK_UNSUPPORTED`: the code operand. -/
  | blinkUnsupported (code : Byte)
  /-- 6 `DISP_BRIGHTNESS_RANGE`: the level operand. -/
  | dispBrightnessRange (level : Byte)
  /-- 7 `GLYPH_NOT_FOUND`: the character. -/
  | glyphNotFound (ch : Char)
  /-- 8 `SIM_CHANGED_AFTER_SETUP`: the driver and the rejected value. -/
  | simChangedAfterSetup (d : Driver) (v : Bool)
deriving DecidableEq, Repr

/-- The environment's coming answers to one kind of draw: a script that is used up one answer a draw, and
the count of draws made, at which the free value stands once the script is used up (log 6). -/
structure Draws (α : Type) where
  script : List α
  drawn : Nat
deriving DecidableEq, Repr

/-- The state of the block. The first nine fields are the spec's tuple (10_state); `cfg` is the open
parameters, which no step changes (00_scope R8); the last four are the model's own. -/
structure State where
  /-- PixelBuffer (R14). -/
  px : Vector Pixel 7
  /-- SegmentBuffer (R17). -/
  seg : Vector Byte 8
  /-- ControllerState (R18 to R20). -/
  ctl : Ctl
  /-- LifecycleFlags of the LED driver (R21). -/
  led : LifecycleFlags
  /-- LifecycleFlags of the display driver (R21). -/
  disp : LifecycleFlags
  /-- The output lines (R25). -/
  lines : Lines
  /-- The I2C handle (R26). -/
  bus : BusState
  /-- The sticky fault register (R24). -/
  fault : Option FaultInfo
  /-- The output history `H` (R27), oldest first. -/
  history : List Event
  /-- The open parameters (00_scope R8). -/
  cfg : Config
  /-- The requests issued and not yet run, oldest first (00_scope R11; log 1). -/
  inbox : List Request
  /-- Answers to `PinClaim` (20_memory R36; log 6). -/
  claims : Draws Reply
  /-- The drawn level of CS at its claim (R25; log 6). -/
  csLevels : Draws Level
  /-- Answers to `BusOpen` and `BusWrite` (20_memory R37; log 6). -/
  busReplies : Draws Reply
deriving DecidableEq, Repr

/-- Why the machine stops. -/
inductive Fault where
  /-- Raised for every operation, and by `step`, in a state whose fault register is set: "While `fault ≠ None`
  it takes no further step" (60_exceptions R130). Safe: nothing is claimed of a block past its fault. -/
  | stuck (info : FaultInfo)
deriving DecidableEq, Repr

/-- Why an instruction has no meaning here. -/
inductive Refusal where
  /-- Raised by an arm of `exec` whose instruction has no meaning yet. Safe. No arm does. -/
  | notModelled (mnemonic : String)
  /-- Raised by `step` for a request that decodes to no operation: `REFUSED(selector)` (30_encoding R56,
  60_exceptions R127). Safe: the run is refused for good. -/
  | undecodable (e : DecodeError)
  /-- Raised by `DISP.PRINT_STR` for a right-justified text of more than 4 characters when the parameter
  `PRINT_RIGHT_LONG` is `Refuse` (43_glyph R118). Safe. -/
  | printRightLong
deriving DecidableEq, Repr

/-- Construction of the drivers (70_reset_and_hazards R143, R147): exactly the values of 10_state R35. It calls no
collaborator, so the history is empty. -/
def State.construct (cfg : Config) : State where
  px := cfg.pixelInit
  seg := cfg.segInit
  ctl := { blink := cfg.blinkInit, br := cfg.dbrInit, initialized := false }
  led := { isSetup := false, sim := cfg.simLedInit }
  disp := { isSetup := false, sim := cfg.simDispInit }
  lines := { dat := .unclaimed, clk := .unclaimed, cs := .unclaimed }
  bus := .closed
  fault := none
  history := []
  cfg := cfg
  inbox := []
  claims := { script := [], drawn := 0 }
  csLevels := { script := [], drawn := 0 }
  busReplies := { script := [], drawn := 0 }

/-- The machine right after reset, with the parameters the model names (log 4, log 5). -/
def State.reset : State := State.construct defaultConfig

end Sys2Proof.Machine
end

