-- ==== Sys2Proof/Machine/Operands.lean ====
section
/-! DEFINITION. What the operands of the operations mean: the LED brightness and its quantizer (spec/41_led_chain.md
R88, R89), blink codes (42_display_controller R102), display positions (20_memory R39, R46), and characters
(43_glyph R113). -/

namespace Sys2Proof.Machine

/-! ## The LED brightness -/

/-- The rational a binary64 datum denotes, as numerator and denominator; none for a NaN or an infinity
(30_encoding R55, 92_eei_decisions D2). The format is IEEE 754's: PRESUMED, log 12. -/
def binary64Value (bits : BitVec 64) : Option (Int × Nat) :=
  let e := (bits.extractLsb' 52 11).toNat
  let m := (bits.extractLsb' 0 52).toNat
  if e = 2047 then none
  else
    let mant := if e = 0 then m else 2 ^ 52 + m
    let scale := max e 1
    let num := if 1075 ≤ scale then mant * 2 ^ (scale - 1075) else mant
    let den := if 1075 ≤ scale then 1 else 2 ^ (1075 - scale)
    some (if bits.getLsbD 63 then -(num : Int) else num, den)

/-- The rational a brightness operand is, if it is one (R55). -/
def brightValue : Brightness → Option (Int × Nat)
  | .ratio _ 0 => none
  | .ratio num den => some (num, den)
  | .f64 bits => binary64Value bits

/-- `legal(b)`: `b` is a rational with `0 ≤ b ≤ 1` (R89). -/
def legalBright (q : Brightness) : Bool :=
  match brightValue q with
  | none => false
  | some (num, den) => decide (0 ≤ num) && decide (num ≤ den)

/-- `floor(n/d + 1/2)`: the nearest integer, ties up (R88, 92_eei_decisions D3). -/
def roundHalfUp (n d : Nat) : Nat := (2 * n + d) / (2 * d)

/-- The nearest integer to `n/d`, ties to even: the rounding inside binary64 arithmetic (log 12). -/
def roundHalfEven (n d : Nat) : Nat :=
  let q := n / d
  let r := n % d
  if 2 * r < d then q
  else if d < 2 * r then q + 1
  else if q % 2 = 0 then q else q + 1

/-- `fl(n/d)`: the binary64 number nearest to `n/d`, for `n/d < 2^53`, as numerator and denominator. The scale keeps 53
significant bits, or reaches the subnormal step `2^-1074` (92_eei_decisions D4; log 12). -/
def fl (n d : Nat) : Nat × Nat :=
  if n = 0 then (0, 1)
  else
    let e : Int := (Nat.log2 n : Int) - Nat.log2 d
    let e := if d * 2 ^ Nat.log2 n ≤ n * 2 ^ Nat.log2 d then e else e - 1
    let k := min 1074 (52 - e).toNat
    (roundHalfEven (n * 2 ^ k) d, 2 ^ k)

/-- The level of `n/d` under the exact quantizer: `floor(31·n/d + 1/2)` (R88). -/
def quantExact (n d : Nat) : Nat := roundHalfUp (31 * n) d

/-- The level of `n/d` under the binary64 form, `round_half_away(fl(31 × fl(b)))` (92_eei_decisions D4). -/
def quantBinary64 (n d : Nat) : Nat :=
  let b := fl n d
  let x := fl (31 * b.1) b.2
  roundHalfUp x.1 x.2

/-- `QUANT(b)` (R88), for a legal brightness. -/
def quant (mode : QuantMode) (q : Brightness) : BitVec 5 :=
  match brightValue q with
  | none => 0#5
  | some (num, den) =>
    match mode with
    | .exact => BitVec.ofNat 5 (quantExact num.toNat den)
    | .binary64 => BitVec.ofNat 5 (quantBinary64 num.toNat den)

/-! ## The other operands -/

/-- `BLINK_DECODE` (R102): the frequency a host code stands for, if any. -/
def blinkDecode (cfg : Config) (code : Byte) : Option BlinkFreq :=
  [BlinkFreq.off, .hz2, .hz1, .hz05].find? fun f => cfg.blinkHost.get f == code

/-- A legal display position, 0..3; any other is ignored (R39, R46). -/
def posIndex? (pos : Int) : Option (Fin 4) :=
  if h : 0 ≤ pos ∧ pos ≤ 3 then some ⟨pos.toNat, by omega⟩ else none

/-- `lookup(ch)` (R113): the glyph mask of a character of code 32..126. -/
def lookup (cfg : Config) (ch : Char) : Option (BitVec 16) :=
  if h : 32 ≤ ch.toNat ∧ ch.toNat ≤ 126 then some (cfg.glyph[ch.toNat - 32]'(by omega)) else none

/-- `lo(m) = m[7:0]` (30_encoding R72). -/
def maskLo (m : BitVec 16) : Byte := m.extractLsb' 0 8

/-- `hi(m) = m[15:8]` (30_encoding R72). -/
def maskHi (m : BitVec 16) : Byte := m.extractLsb' 8 8

/-- The start position of `PRINT_STR`: `4 − len` when right-justified, a signed number, else 0 (R117). -/
def printStart (text : List Char) (justifyRight : Bool) : Int :=
  if justifyRight then 4 - (text.length : Int) else 0

end Sys2Proof.Machine
end

