-- ==== Sys2Proof/Machine/Ops.lean ====
section
/-! DEFINITION. The shared operations: the pseudocode primitives of spec/00_scope.md R10, sequencing with the fault rule of
60_exceptions R129, the emissions of 41_led_chain R94 to R96, the buffer writes, and where a request comes from. -/

namespace Sys2Proof.Machine

/-! ## Writing one field of the state -/

def State.withPx (s : State) (v : Vector Pixel 7) : State := { s with px := v }
def State.withSeg (s : State) (v : Vector Byte 8) : State := { s with seg := v }
def State.withCtl (s : State) (v : Ctl) : State := { s with ctl := v }
def State.withLed (s : State) (v : LifecycleFlags) : State := { s with led := v }
def State.withDisp (s : State) (v : LifecycleFlags) : State := { s with disp := v }
def State.withLines (s : State) (v : Lines) : State := { s with lines := v }
def State.withBus (s : State) (v : BusState) : State := { s with bus := v }
def State.withFault (s : State) (v : Option FaultInfo) : State := { s with fault := v }
def State.withHistory (s : State) (v : List Event) : State := { s with history := v }
def State.withInbox (s : State) (v : List Request) : State := { s with inbox := v }
def State.withClaims (s : State) (v : Draws Reply) : State := { s with claims := v }
def State.withCsLevels (s : State) (v : Draws Level) : State := { s with csLevels := v }
def State.withBusReplies (s : State) (v : Draws Reply) : State := { s with busReplies := v }

/-! ## Sequencing, faults -/

/-- One statement of an operation's pseudocode. -/
abbrev Op := State → State

/-- TAKING A FAULT: `raise Fault(code, info)` sets the sticky fault register. What came before it stays (60_exceptions R129). -/
def raise (info : FaultInfo) : Op := fun s => s.withFault (some info)

/-- The statement that does nothing: `ignore` (00_scope R10, 60_exceptions R123). -/
def ignore : Op := fun s => s

/-- One statement after another: "No statement after it in the operation's pseudocode runs" once one has raised (R129). -/
def andThen (f g : Op) : Op := fun s =>
  let t := f s
  match t.fault with
  | none => g t
  | some _ => t

/-- A list of statements in order. -/
def inOrder : List Op → Op
  | [] => ignore
  | f :: fs => andThen f (inOrder fs)

/-- Run an operation: it answers a next state, in which the operation may have raised its fault; in a state with a fault
recorded it is stuck (60_exceptions R130). -/
def whileRunning (s : State) (body : Op) : Host.Outcome State Fault Refusal :=
  match s.fault with
  | none => .next (body s)
  | some info => .fault (.stuck info)

/-! ## The environment's draws (92_eei_decisions D31, D12; log 6) -/

/-- The next answer: the script's first, or the free value at the count of draws made. -/
def Draws.head {α : Type} (free : Nat → α) (d : Draws α) : α :=
  match d.script with
  | r :: _ => r
  | [] => free d.drawn

/-- The draws that are left after one. -/
def Draws.tail {α : Type} (d : Draws α) : Draws α :=
  { script := d.script.tail, drawn := d.drawn + 1 }

/-- The `k`-th answer to come, counted from 0: the script's, or the free value past its end. -/
def Draws.nth {α : Type} (free : Nat → α) (d : Draws α) (k : Nat) : α :=
  (d.script[k]?).getD (free (d.drawn + k))

/-- The draws that are left after `k` of them. -/
def Draws.skip {α : Type} (d : Draws α) (k : Nat) : Draws α :=
  { script := d.script.drop k, drawn := d.drawn + k }

/-- The `k`-th answer to come to a `PinClaim`. -/
def State.claimAt (s : State) (k : Nat) : Reply := s.claims.nth Config.freeClaimReply k

/-- The `k`-th answer to come to a `BusOpen` or `BusWrite`. -/
def State.busReplyAt (s : State) (k : Nat) : Reply := s.busReplies.nth Config.freeBusReply k

/-- What the next `PinClaim` answers. -/
def State.nextClaim (s : State) : Reply := s.claims.head Config.freeClaimReply

/-- The level the environment draws for CS. -/
def State.nextCsLevel (s : State) : Level := s.csLevels.head Config.freeCsLevel

/-- What the next `BusOpen` or `BusWrite` answers. -/
def State.nextBusReply (s : State) : Reply := s.busReplies.head Config.freeBusReply

/-! ## Events and lines -/

/-- The lines after one event: only a `PinWrite` changes a line (10_state R25). -/
def Lines.after (l : Lines) : Event → Lines
  | .pin .dat v => { l with dat := .driven v }
  | .pin .clk v => { l with clk := .driven v }
  | .pin .cs v => { l with cs := .driven v }
  | .claim _ | .settle | .busOpen | .addr _ | .write _ _ => l

/-- Perform events in order: each is appended to `H`, and each `PinWrite` drives its line (00_scope R10, 10_state R25, R27). -/
def emit (evs : List Event) : Op := fun s =>
  (s.withLines (evs.foldl Lines.after s.lines)).withHistory (s.history ++ evs)

/-- `PinClaim(line)`: the event is appended, then the collaborator's answer is looked at (60_exceptions R132). -/
def pinClaim (line : Line) : Op := fun s =>
  let t := (emit [.claim line] s).withClaims s.claims.tail
  match s.nextClaim with
  | .ok => t
  | .error e => raise (.pinClaimFailed line e) t

/-- The levels right after the claims: DAT and CLK low, CS at the drawn level (40_lifecycle R80, 92_eei_decisions D12). -/
def driveClaimed : Op := fun s =>
  (s.withLines { dat := .driven .low, clk := .driven .low, cs := .driven s.nextCsLevel }).withCsLevels s.csLevels.tail

/-- `PinWrite(line, level)` (00_scope R10). -/
def pinWrite (line : Line) (level : Level) : Op := emit [.pin line level]

/-- `BusOpen()` (00_scope R10), with the fault of R103. -/
def busOpen : Op := fun s =>
  let t := (emit [.busOpen] s).withBusReplies s.busReplies.tail
  match s.nextBusReply with
  | .ok => t
  | .error e => raise (.busOpenFailed e) t

/-- `BusSetAddress(a)` and `bus <- Open(a)` (00_scope R10, 42_display_controller R103). -/
def busSetAddress (a : BitVec 7) : Op := fun s => (emit [.addr a] s).withBus (.opened a)

/-- `BusWrite(cmd, payload)` (00_scope R10), with the fault of R103 and R107. -/
def busWrite (cmd : Byte) (payload : List Byte) : Op := fun s =>
  let t := (emit [.write cmd payload] s).withBusReplies s.busReplies.tail
  match s.nextBusReply with
  | .ok => t
  | .error e => raise (.busWriteFailed cmd e) t

/-- `SendCmd(c)`: a command byte with an empty payload (42_display_controller R103, 30_encoding R65). -/
def sendCmd (cmd : Byte) : Op := busWrite cmd []

/-! ## The LED frame (41_led_chain R94 to R96) -/

/-- `EmitBit(v)` (R94). -/
def bitEvents (v : Bool) : List Event :=
  [.pin .dat (Level.ofBit v), .pin .clk .high, .settle, .pin .clk .low, .settle]

/-- A list of bits, each emitted in turn. -/
def bitsEvents (bits : List Bool) : List Event := bits.flatMap bitEvents

/-- `EmitByte(x)`: most significant bit first (R94). -/
def byteEvents (x : Byte) : List Event := bitsEvents (bitsMsb x)

/-- `EmitZeros(n)` (R94). -/
def zerosEvents (n : Nat) : List Event := bitsEvents (List.replicate n false)

/-- Start of frame: 32 pulses with DAT low (30_encoding R60). -/
def sofEvents : List Event := zerosEvents 32

/-- End of frame: 36 pulses with DAT low (30_encoding R63, 90_conflicts C1). -/
def eofEvents : List Event := zerosEvents 36

/-- One pixel word: control byte, blue, green, red (R95 step 3). -/
def pixelWordEvents (br : BitVec 5) (b g r : Byte) : List Event :=
  byteEvents (ctrlByte br) ++ byteEvents b ++ byteEvents g ++ byteEvents r

/-- The words of the buffer, pixel 0 first (20_memory R44). -/
def pixelsEvents (px : Vector Pixel 7) : List Event :=
  px.toList.flatMap fun p => pixelWordEvents p.br p.b p.g p.r

/-- One whole frame: CS assert, SOF, 7 pixel words, EOF, CS deassert (R95, 30_encoding R59, R64). -/
def frameEvents (csActive : Level) (px : Vector Pixel 7) : List Event :=
  [.pin .cs csActive] ++ sofEvents ++ pixelsEvents px ++ eofEvents ++ [.pin .cs csActive.not]

/-! ## Buffer writes -/

/-- A function of every pixel, for i in 0..6 (41_led_chain R92, R93). -/
def mapPixels (f : Pixel → Pixel) (px : Vector Pixel 7) : Vector Pixel 7 :=
  #v[f px[0], f px[1], f px[2], f px[3], f px[4], f px[5], f px[6]]

/-- `px[i] <- p`; an index of 7 or more is ignored (41_led_chain R90). -/
def writePixel (index : Nat) (p : Pixel) : Op := fun s =>
  if h : index < 7 then s.withPx (s.px.set index p) else ignore s

/-- Position `p` of SegmentBuffer gets a mask, low byte first (20_memory R42). -/
def storeMask (seg : Vector Byte 8) (p : Fin 4) (mask : BitVec 16) : Vector Byte 8 :=
  (seg.set (2 * p.val) (maskLo mask) (by omega)).set (2 * p.val + 1) (maskHi mask) (by omega)

/-- Position `p` of SegmentBuffer, read back as a mask (20_memory R42). -/
def readMask (seg : Vector Byte 8) (p : Fin 4) : BitVec 16 :=
  (seg[2 * p.val + 1]'(by omega)) ++ (seg[2 * p.val]'(by omega))

/-- Bit 6 of position `p`'s high byte set or cleared, nothing else (43_glyph R115). -/
def storeDecimal (seg : Vector Byte 8) (p : Fin 4) (on : Bool) : Vector Byte 8 :=
  let hi := seg[2 * p.val + 1]'(by omega)
  seg.set (2 * p.val + 1) (if on then hi ||| 0x40#8 else hi &&& 0xBF#8) (by omega)

/-! ## Where a request comes from (log 1) -/

/-- The oldest request of the inbox, and the state without it. -/
def nextRequest (s : State) : Option (Request × State) :=
  match s.inbox with
  | [] => none
  | r :: rest => some (r, s.withInbox rest)

/-- A table row's word put where the next request is taken from. -/
def placeTableWord (s : State) (nbits w : Nat) : State :=
  s.withInbox (tableRequest nbits w :: s.inbox)

end Sys2Proof.Machine
end

