-- ==== Sys2Proof/Machine/Flags.lean ====
section
/-! DEFINITION. The lifecycle flags (spec/40_lifecycle.md): the block has no other flags (10_state R13). Setting up, running only
when not simulated, and changing the simulation flag. -/

namespace Sys2Proof.Machine

/-- The flags of a driver (10_state R21). -/
abbrev State.flags (s : State) : Driver → LifecycleFlags
  | .led => s.led
  | .disp => s.disp

/-- `d.sim <- v` (R82, R83). -/
def writeSim (d : Driver) (v : Bool) : Op := fun s =>
  match d with
  | .led => s.withLed { s.led with sim := v }
  | .disp => s.withDisp { s.disp with sim := v }

/-- `d.is_setup <- true`, and with the display's flag `ctl.initialized <- true` (R78, 10_state R20). -/
def markSetup (d : Driver) : Op := fun s =>
  match d with
  | .led => s.withLed { s.led with isSetup := true }
  | .disp => (s.withDisp { s.disp with isSetup := true }).withCtl { s.ctl with initialized := true }

/-- `Acquire(led)`: the three claims, then the levels after them (R80). -/
def acquireLed : Op :=
  inOrder [pinClaim .dat, pinClaim .clk, pinClaim .cs, driveClaimed]

/-- `Acquire(disp)`: open, address 0x70, oscillator on, then the stored blink and dimming commands
(42_display_controller R103). -/
def acquireDisp : Op :=
  inOrder [busOpen, busSetAddress 0x70#7,
    fun s => sendCmd s.cfg.cmdOscOn s,
    fun s => sendCmd (blinkCmd s.cfg s.ctl.blink) s,
    fun s => sendCmd (dimCmd s.cfg s.ctl.br) s]

/-- `Acquire(d)`. -/
def acquire : Driver → Op
  | .led => acquireLed
  | .disp => acquireDisp

/-- `IfNotSim(d) { body }` (R79). -/
def ifNotSim (d : Driver) (body : Op) : Op := fun s =>
  if (s.flags d).sim then s else body s

/-- `EnsureSetup(d)` (R78). -/
def ensureSetup (d : Driver) : Op := fun s =>
  if (s.flags d).isSetup then s
  else andThen (ifNotSim d (acquire d)) (markSetup d) s

/-- `SET_SIMULATION v` of a driver: a change after setup faults (R82, R83; 90_conflicts C5). -/
def changeSim (d : Driver) (v : Bool) : Op := fun s =>
  if (s.flags d).isSetup && v != (s.flags d).sim then raise (.simChangedAfterSetup d v) s
  else writeSim d v s

end Sys2Proof.Machine
end

