-- ==== Sys2Proof/Machine/DisplayController.lean ====
section
/-! DEFINITION. The display controller operations (spec/42_display_controller.md). -/

namespace Sys2Proof.Machine

/-- Store a setting and set up, in the order that `CTL_ORDER` says (R104). -/
def storeAndSetup (store : Op) : Op := fun s =>
  match s.cfg.ctlOrder with
  | .storeFirst => andThen store (ensureSetup .disp) s
  | .setupFirst => andThen (ensureSetup .disp) store s

/-- `ctl.blink <- f` (R105). -/
def storeBlink (f : BlinkFreq) : Op := fun s => s.withCtl { s.ctl with blink := f }

/-- `ctl.br <- l` (R106). -/
def storeDim (level : BitVec 4) : Op := fun s => s.withCtl { s.ctl with br := level }

/-- `set_blink` with a host code (R105): an unsupported code faults before any store or setup. -/
def setBlink (code : Byte) : Op := fun s =>
  match blinkDecode s.cfg code with
  | none => raise (.blinkUnsupported code) s
  | some f => andThen (storeAndSetup (storeBlink f)) (ifNotSim .disp fun t => sendCmd (blinkCmd t.cfg f) t) s

/-- `set_brightness` with a level (R106): a level above 15 faults before any store or setup. -/
def setDim (level : Byte) : Op := fun s =>
  if 15 < level.toNat then raise (.dispBrightnessRange level) s
  else
    let l := level.extractLsb' 0 4
    andThen (storeAndSetup (storeDim l)) (ifNotSim .disp fun t => sendCmd (dimCmd t.cfg l) t) s

/-- `write_display`: set up, then, unless simulated, the whole buffer after command byte 0 (R107). -/
def flushBuffer : Op :=
  andThen (ensureSetup .disp) (ifNotSim .disp fun s => busWrite cmdData s.seg.toList s)

/-- `DISP.SET_BLINK code` (R105). -/
def execDispSetBlink (code : Byte) (s : State) : Host.Outcome State Fault Refusal :=
  whileRunning s (setBlink code)

/-- `DISP.SET_BRIGHTNESS level` (R106). -/
def execDispSetBrightness (level : Byte) (s : State) : Host.Outcome State Fault Refusal :=
  whileRunning s (setDim level)

/-- `DISP.WRITE_DISPLAY` (R107). -/
def execDispWriteDisplay (s : State) : Host.Outcome State Fault Refusal :=
  whileRunning s flushBuffer

end Sys2Proof.Machine
end

