-- ==== Sys2Proof/Machine/Glyph.lean ====
section
/-! DEFINITION. The glyph layer operations (spec/43_glyph.md). None of them sets up or calls a collaborator (40_lifecycle R86). -/

namespace Sys2Proof.Machine

/-- `set_digit_raw`: a position outside 0..3 is ignored (R114). -/
def setDigitRaw (pos : Int) (mask : BitVec 16) : Op := fun s =>
  match posIndex? pos with
  | none => ignore s
  | some p => s.withSeg (storeMask s.seg p mask)

/-- `set_decimal`: a position outside 0..3 is ignored (R115). -/
def setDecimal (pos : Int) (on : Bool) : Op := fun s =>
  match posIndex? pos with
  | none => ignore s
  | some p => s.withSeg (storeDecimal s.seg p on)

/-- `set_digit`: the lookup first, then the mask, then the decimal point if asked for (R116, 92_eei_decisions D23). -/
def setDigit (pos : Int) (ch : Char) (decimal : Bool) : Op := fun s =>
  match lookup s.cfg ch with
  | none => raise (.glyphNotFound ch) s
  | some m => andThen (setDigitRaw pos m) (if decimal then setDecimal pos true else ignore) s

/-- One `set_digit` a character, at consecutive positions from `start` (R117). -/
def printFrom (start : Int) : List Char → Op
  | [] => ignore
  | ch :: rest => andThen (setDigit start ch false) (printFrom (start + 1) rest)

/-- Whether `PRINT_RIGHT_LONG = Refuse` refuses this text: right-justified and longer than 4 (R118). -/
def refusesText (cfg : Config) (text : List Char) (justifyRight : Bool) : Bool :=
  justifyRight && decide (4 < text.length) && cfg.printRightLong == .refuse

/-- `DISP.SET_DIGIT_RAW pos, mask` (R114). -/
def execDispSetDigitRaw (pos : Int) (mask : BitVec 16) (s : State) : Host.Outcome State Fault Refusal :=
  whileRunning s (setDigitRaw pos mask)

/-- `DISP.SET_DECIMAL pos, on` (R115). -/
def execDispSetDecimal (pos : Int) (on : Bool) (s : State) : Host.Outcome State Fault Refusal :=
  whileRunning s (setDecimal pos on)

/-- `DISP.SET_DIGIT pos, ch, decimal` (R116). -/
def execDispSetDigit (pos : Int) (ch : Char) (decimal : Bool) (s : State) : Host.Outcome State Fault Refusal :=
  whileRunning s (setDigit pos ch decimal)

/-- `DISP.PRINT_STR text, justify_right` (R117, R118; log 17). -/
def execDispPrintStr (text : List Char) (justifyRight : Bool) (s : State) : Host.Outcome State Fault Refusal :=
  if s.fault.isNone && refusesText s.cfg text justifyRight then .refused .printRightLong
  else whileRunning s (printFrom (printStart text justifyRight) text)

end Sys2Proof.Machine
end

