-- ==== Sys2Proof/Machine/LedChain.lean ====
section
/-! DEFINITION. The LED chain operations (spec/41_led_chain.md). -/

namespace Sys2Proof.Machine

/-- A brightness outside [0, 1] raises its fault before any write (R89); else the operation runs with the quantized level. -/
def withLevel (q : Brightness) (op : BitVec 5 → Op) : Op := fun s =>
  if legalBright q then op (quant s.cfg.quant q) s else raise (.ledBrightnessRange q) s

/-- `show`: set up, then, unless simulated, one whole frame (R95). -/
def showFrame : Op :=
  andThen (ensureSetup .led) (ifNotSim .led fun s => emit (frameEvents s.cfg.csActive s.px) s)

/-- `clear`: zero colours, levels unchanged (R93). -/
def clearColours : Op := fun s =>
  s.withPx (mapPixels (fun p => { p with r := 0#8, g := 0#8, b := 0#8 }) s.px)

/-- `LED.SET_PIXEL index, r, g, b, bright` (R90): the brightness is looked at before the index (60_exceptions R135). -/
def execLedSetPixel (index : Nat) (r g b : Byte) (bright : Brightness) (s : State) :
    Host.Outcome State Fault Refusal :=
  whileRunning s (withLevel bright fun level => writePixel index { r := r, g := g, b := b, br := level })

/-- `LED.SET_ALL r, g, b, bright` (R91). -/
def execLedSetAll (r g b : Byte) (bright : Brightness) (s : State) : Host.Outcome State Fault Refusal :=
  whileRunning s (withLevel bright fun level t =>
    t.withPx (mapPixels (fun _ => { r := r, g := g, b := b, br := level }) t.px))

/-- `LED.SET_BRIGHTNESS bright` (R92): only the level of each pixel. -/
def execLedSetBrightness (bright : Brightness) (s : State) : Host.Outcome State Fault Refusal :=
  whileRunning s (withLevel bright fun level t => t.withPx (mapPixels (fun p => { p with br := level }) t.px))

/-- `LED.CLEAR` (R93). -/
def execLedClear (s : State) : Host.Outcome State Fault Refusal :=
  whileRunning s clearColours

/-- `LED.SHOW` (R95). -/
def execLedShow (s : State) : Host.Outcome State Fault Refusal :=
  whileRunning s showFrame

/-- `LED.EXIT` (R98): `LED.CLEAR`, then `LED.SHOW`. -/
def execLedExit (s : State) : Host.Outcome State Fault Refusal :=
  whileRunning s (andThen clearColours showFrame)

end Sys2Proof.Machine
end

