-- ==== Sys2Proof/Machine/Lifecycle.lean ====
section
/-! DEFINITION. The lifecycle operations (spec/40_lifecycle.md). -/

namespace Sys2Proof.Machine

/-- `LED.SETUP` (R81). -/
def execLedSetup (s : State) : Host.Outcome State Fault Refusal :=
  whileRunning s (ensureSetup .led)

/-- `LED.SET_SIMULATION v` (R82). -/
def execLedSetSimulation (v : Bool) (s : State) : Host.Outcome State Fault Refusal :=
  whileRunning s (changeSim .led v)

/-- `DISP.SETUP` (R84). -/
def execDispSetup (s : State) : Host.Outcome State Fault Refusal :=
  whileRunning s (ensureSetup .disp)

/-- `DISP.SET_SIMULATION v` (R83). -/
def execDispSetSimulation (v : Bool) (s : State) : Host.Outcome State Fault Refusal :=
  whileRunning s (changeSim .disp v)

end Sys2Proof.Machine
end

