-- ==== Sys2Proof/Machine/WireUnits.lean ====
section
/-! DEFINITION. The wire formats as instructions of their own (spec/30_encoding.md R60 to R69): the one statement of `show`, of
`write_display` or of the display's setup that emits the format, under the guards those operations put around it, `EnsureSetup`
and `IfNotSim`. DESIGN CHOICE, unsafe: log 2. -/

namespace Sys2Proof.Machine

/-- A statement that needs a driver's physical resource: set up, then run it unless simulated (40_lifecycle R78, R79, R86). -/
def onWire (d : Driver) (body : Op) : Op := andThen (ensureSetup d) (ifNotSim d body)

/-- `LED.SOF`: 32 pulses with DAT low (R60). -/
def execLedSof (s : State) : Host.Outcome State Fault Refusal :=
  whileRunning s (onWire .led (emit sofEvents))

/-- `LED.PIXEL_WORD`: the 32 bits of one pixel word (R61). -/
def execLedPixelWord (br : BitVec 5) (b g r : Byte) (s : State) : Host.Outcome State Fault Refusal :=
  whileRunning s (onWire .led (emit (pixelWordEvents br b g r)))

/-- `LED.EOF`: 36 pulses with DAT low (R63). -/
def execLedEof (s : State) : Host.Outcome State Fault Refusal :=
  whileRunning s (onWire .led (emit eofEvents))

/-- `I2C.DATA`: the data command with its payload, which is the segment buffer (R66), whichever 8 bytes the request spells: every
data write carries the positions' masks (R77). DESIGN CHOICE, log 2. -/
def execI2cData (_payload : Vector Byte 8) (s : State) : Host.Outcome State Fault Refusal :=
  whileRunning s (onWire .disp fun t => busWrite cmdData t.seg.toList t)

/-- `I2C.OSC_ON`: the oscillator command (R67). -/
def execI2cOscOn (s : State) : Host.Outcome State Fault Refusal :=
  whileRunning s (onWire .disp fun t => sendCmd t.cfg.cmdOscOn t)

/-- `I2C.BLINK`: the blink command of a frequency (R68). -/
def execI2cBlink (f : BlinkFreq) (s : State) : Host.Outcome State Fault Refusal :=
  whileRunning s (onWire .disp fun t => sendCmd (blinkCmd t.cfg f) t)

/-- `I2C.DIM`: the dimming command of a level (R69). -/
def execI2cDim (level : BitVec 4) (s : State) : Host.Outcome State Fault Refusal :=
  whileRunning s (onWire .disp fun t => sendCmd (dimCmd t.cfg level) t)

end Sys2Proof.Machine
end

