-- ==== Sys2Proof/Machine/Dispatch.lean ====
section
/-! DEFINITION. exec: one arm per constructor of Instr. -/

namespace Sys2Proof.Machine

def exec (i : Instr) (s : State) : Host.Outcome State Fault Refusal :=
  match i with
  | .ledSetup => Sys2Proof.Machine.execLedSetup s
  | .ledSetSimulation v => Sys2Proof.Machine.execLedSetSimulation v s
  | .ledSetPixel index r g b bright => Sys2Proof.Machine.execLedSetPixel index r g b bright s
  | .ledSetAll r g b bright => Sys2Proof.Machine.execLedSetAll r g b bright s
  | .ledSetBrightness bright => Sys2Proof.Machine.execLedSetBrightness bright s
  | .ledClear => Sys2Proof.Machine.execLedClear s
  | .ledShow => Sys2Proof.Machine.execLedShow s
  | .ledExit => Sys2Proof.Machine.execLedExit s
  | .dispSetup => Sys2Proof.Machine.execDispSetup s
  | .dispSetSimulation v => Sys2Proof.Machine.execDispSetSimulation v s
  | .dispSetBlink code => Sys2Proof.Machine.execDispSetBlink code s
  | .dispSetBrightness level => Sys2Proof.Machine.execDispSetBrightness level s
  | .dispWriteDisplay => Sys2Proof.Machine.execDispWriteDisplay s
  | .dispSetDigitRaw pos mask => Sys2Proof.Machine.execDispSetDigitRaw pos mask s
  | .dispSetDecimal pos on => Sys2Proof.Machine.execDispSetDecimal pos on s
  | .dispSetDigit pos ch decimal => Sys2Proof.Machine.execDispSetDigit pos ch decimal s
  | .dispPrintStr text justifyRight => Sys2Proof.Machine.execDispPrintStr text justifyRight s
  | .ledSof => Sys2Proof.Machine.execLedSof s
  | .ledPixelWord br b g r => Sys2Proof.Machine.execLedPixelWord br b g r s
  | .ledEof => Sys2Proof.Machine.execLedEof s
  | .i2cData payload => Sys2Proof.Machine.execI2cData payload s
  | .i2cOscOn => Sys2Proof.Machine.execI2cOscOn s
  | .i2cBlink f => Sys2Proof.Machine.execI2cBlink f s
  | .i2cDim level => Sys2Proof.Machine.execI2cDim level s

end Sys2Proof.Machine
end

