-- ==== Sys2Proof/Machine/Step.lean ====
section
/-! DEFINITION. One step of the machine: the oldest request of the inbox is decoded and run, whole (spec/00_scope.md R11,
20_memory R48). -/

namespace Sys2Proof.Machine

/-- One step. With a fault recorded the block "has no further step" (60_exceptions R130); with no request it "waits for the
first host operation" (70_reset_and_hazards R144); a request that spells no operation is refused (30_encoding R56). -/
def step (s : State) : Host.Outcome State Fault Refusal :=
  match s.fault with
  | some info => .fault (.stuck info)
  | none =>
    match nextRequest s with
    | none => .next s
    | some (r, t) =>
      match decode s.cfg r with
      | .ok i => exec i t
      | .error e => .refused (.undecodable e)

/-- The state whose next step runs the instruction of a table row's word: its request stands first in the inbox (log 1,
log 3). -/
def State.withFetchWord (s : State) (nbits w : Nat) : State := placeTableWord s nbits w

end Sys2Proof.Machine
end

