-- ==== Sys2Proof/Machine/Observe.lean ====
section
/-! DEFINITION. What the block does is judged by its state and its output history (spec/00_scope.md R12): the sampled bit stream of
the LED wires (41_led_chain R96, R97), the collaborator calls, the bus writes, and the settle time. No step reads any of it
(10_state R27). -/

namespace Sys2Proof.Machine

/-! ## The sampled bit stream -/

/-- `frameBits(px)`: the 292 bits of a frame (R96). -/
def frameBits (px : Vector Pixel 7) : List Bool :=
  List.replicate 32 false
    ++ (px.toList.flatMap fun p => bitsMsb (ctrlByte p.br) ++ bitsMsb p.b ++ bitsMsb p.g ++ bitsMsb p.r)
    ++ List.replicate 36 false

/-- An observer of the LED wires: the level in force on DAT, the bits sampled since CS was asserted (newest first; none while CS
is not asserted), and the streams of the segments that are over. -/
structure Sampler where
  dat : Level
  segment : Option (List Bool)
  streams : List (List Bool)
deriving DecidableEq, Repr

/-- One event seen by the observer (R97): a segment runs from a `Pin(CS, CS_ACTIVE)` event to the next
`Pin(CS, not CS_ACTIVE)` event, and each `Pin(CLK, High)` inside it samples the level in force on DAT. -/
def Sampler.see (csActive : Level) (o : Sampler) : Event → Sampler
  | .pin .dat v => { o with dat := v }
  | .pin .clk v =>
    match v, o.segment with
    | .high, some bits => { o with segment := some (o.dat.bit :: bits) }
    | _, _ => o
  | .pin .cs v =>
    match o.segment with
    | none => if v = csActive then { o with segment := some [] } else o
    | some bits => if v = csActive then o else { o with segment := none, streams := o.streams ++ [bits.reverse] }
  | .claim _ | .settle | .busOpen | .addr _ | .write _ _ => o

/-- The observer after a list of events, from one that has seen nothing. -/
def observe (csActive : Level) (evs : List Event) : Sampler :=
  evs.foldl (Sampler.see csActive) { dat := .low, segment := none, streams := [] }

/-- The sampled streams of the segments of a history, oldest first (R97). -/
def sampledStreams (csActive : Level) (evs : List Event) : List (List Bool) :=
  (observe csActive evs).streams

/-! ## Collaborator calls -/

/-- One call to PinAccess or BusAccess (00_scope R10). -/
inductive CollabCall where
  | claimOutput (pin : Nat)
  | pinWrite (pin : Nat) (level : Level)
  | busOpen
  | setAddress (a : BitVec 7)
  | blockWrite (cmd : Byte) (payload : List Byte)
deriving DecidableEq, Repr

/-- "Each is one collaborator call, except `Settle`" (00_scope R12), with the line's number (10_state R29). -/
def Event.call (cfg : Config) : Event → Option CollabCall
  | .claim line => some (.claimOutput (cfg.pinOf line))
  | .pin line level => some (.pinWrite (cfg.pinOf line) level)
  | .settle => none
  | .busOpen => some .busOpen
  | .addr a => some (.setAddress a)
  | .write cmd payload => some (.blockWrite cmd payload)

/-- Whose event it is: `Claim`, `Pin` and `Settle` are the LED driver's, `Open`, `Addr` and `Write` the display's (20_memory R36,
R37). -/
def Event.driver : Event → Driver
  | .claim _ | .pin _ _ | .settle => .led
  | .busOpen | .addr _ | .write _ _ => .disp

/-- The events of one driver in a history. -/
def eventsOf (d : Driver) (evs : List Event) : List Event :=
  evs.filter fun e => e.driver == d

/-- The settle delay inside a list of events, `T_SETTLE` a marker (70_reset_and_hazards R158). -/
def settleTime (cfg : Config) (evs : List Event) : Nat :=
  cfg.tSettle * evs.count .settle

/-! ## Bus writes -/

/-- The bus writes of a history, oldest first (00_scope R10). -/
def busWrites : List Event → List (Byte × List Byte)
  | [] => []
  | .write cmd payload :: rest => (cmd, payload) :: busWrites rest
  | .claim _ :: rest | .pin _ _ :: rest | .settle :: rest | .busOpen :: rest | .addr _ :: rest => busWrites rest

/-- Whether a byte is one of the four blink commands (30_encoding R68). -/
def isBlinkCmd (cfg : Config) (cmd : Byte) : Bool := (blinkOfCmd cfg cmd).isSome

/-- Whether a byte is one of the sixteen dimming commands (30_encoding R69). -/
def isDimCmd (cfg : Config) (cmd : Byte) : Bool := cmd &&& 0xF0#8 == cfg.cmdDimBase

/-- The command byte of the last bus write of a history that a test picks. -/
def lastCmd (pick : Byte → Bool) (evs : List Event) : Option Byte :=
  ((busWrites evs).map (·.1)).reverse.find? pick

/-- What the block may put on the bus (30_encoding R74, R65 to R69): the address 0x70, a buffer flush of 8 bytes, or one of the
commands with an empty payload. -/
def Event.busLegal (cfg : Config) : Event → Bool
  | .addr a => a == 0x70#7
  | .write cmd payload =>
    (cmd == cmdData && payload.length == 8)
      || (payload.isEmpty && (cmd == cfg.cmdOscOn || isBlinkCmd cfg cmd || isDimCmd cfg cmd))
  | .claim _ | .pin _ _ | .settle | .busOpen => true

/-- A sampled stream that has the form of a frame (30_encoding R59 to R63, R74): 32 zeros, seven words of 32 bits that each begin
`111`, 36 zeros. -/
def isFrame (bits : List Bool) : Bool :=
  bits.length == 292
    && bits.take 32 == List.replicate 32 false
    && ((List.range 7).all fun i => (bits.drop (32 + 32 * i)).take 3 == [true, true, true])
    && bits.drop 256 == List.replicate 36 false

/-! ## Faults -/

/-- The code of a recorded fault (60_exceptions R124). -/
def FaultInfo.code : FaultInfo → Nat
  | .pinClaimFailed _ _ => 1
  | .busOpenFailed _ => 2
  | .busWriteFailed _ _ => 3
  | .ledBrightnessRange _ => 4
  | .blinkUnsupported _ => 5
  | .dispBrightnessRange _ => 6
  | .glyphNotFound _ => 7
  | .simChangedAfterSetup _ _ => 8

end Sys2Proof.Machine
end

