-- ==== Sys2Proof/Machine/Run.lean ====
section
/-! DEFINITION. Several operations in the order the host issues them (spec/00_scope.md R11). -/

namespace Sys2Proof.Machine

/-- Run instructions one after another, stopping at the first that does not answer a next state (R11). -/
def execAll : List Instr → State → Host.Outcome State Fault Refusal
  | [], s => .next s
  | i :: rest, s =>
    match exec i s with
    | .next t => execAll rest t
    | .fault r => .fault r
    | .refused r => .refused r

/-- Run instructions as the expansion of one operation (30_encoding R58): the first that faults ends the operation there, with its
fault (60_exceptions R129). -/
def execExpansion : List Instr → State → Host.Outcome State Fault Refusal
  | [], s => .next s
  | i :: rest, s =>
    match exec i s with
    | .next t => if t.fault.isSome then .next t else execExpansion rest t
    | .fault r => .fault r
    | .refused r => .refused r

/-- A step answers a next state: a run is a chain of these. -/
def StepsTo (s t : State) : Prop := step s = .next t

end Sys2Proof.Machine
end

