-- ==== Sys2Proof/Safety.lean ====
section
/-! DEFINITION. What counts as a safe run, and the invariants of the block in the terms that statements use. -/

namespace Sys2Proof.Machine

/-- No fault is recorded: the premise of every claim (spec/60_exceptions.md R130). -/
abbrev State.Running (s : State) : Prop := s.fault = none

/-- The two places that say the controller is set up agree (10_state R20). -/
abbrev State.InitializedAgrees (s : State) : Prop := s.ctl.initialized = s.disp.isSetup

/-- The bus is closed or open at 0x70; without a fault it is open exactly when the display is physically set up (10_state R26,
40_lifecycle R78). -/
abbrev State.BusMatchesSetup (s : State) : Prop :=
  (s.bus = .closed ∨ s.bus = .opened 0x70#7) ∧
  (s.fault = none → (s.bus = .opened 0x70#7 ↔ (s.disp.isSetup = true ∧ s.disp.sim = false)))

/-- A line that has been claimed and is driven. -/
def LineState.isDriven : LineState → Bool
  | .unclaimed => false
  | .driven _ => true

/-- The lines are driven, with CLK low, exactly when the LED driver is physically set up; otherwise they are unclaimed
(10_state R25, 70_reset_and_hazards R154). -/
abbrev State.LinesMatchSetup (s : State) : Prop :=
  if s.led.isSetup = true ∧ s.led.sim = false then
    s.lines.dat.isDriven = true ∧ s.lines.clk = .driven .low ∧ s.lines.cs.isDriven = true
  else s.lines = { dat := .unclaimed, clk := .unclaimed, cs := .unclaimed }

/-- The lifecycle invariant: flags, lines and bus agree. -/
abbrev State.LifecycleInv (s : State) : Prop :=
  s.InitializedAgrees ∧ s.BusMatchesSetup ∧ s.LinesMatchSetup

/-- Without a fault, a driver that is not physically set up (not set up at all, or simulated) has made no collaborator call
(40_lifecycle R78, R85; 70_reset_and_hazards R147). -/
abbrev State.NoCallUnlessSetUp (s : State) : Prop :=
  s.fault = none → ∀ d : Driver, (s.flags d).isSetup = true ∧ (s.flags d).sim = false ∨ eventsOf d s.history = []

/-- Everything the block has put on the bus is something it may put there (30_encoding R74). -/
abbrev State.BusTrafficLegal (s : State) : Prop := s.history.all (Event.busLegal s.cfg) = true

/-- No segment of the LED wires is open between operations, and every segment that was closed is a frame (30_encoding R74,
20_memory R48). -/
abbrev State.FramesWhole (s : State) : Prop :=
  (observe s.cfg.csActive s.history).segment = none ∧
  (sampledStreams s.cfg.csActive s.history).all isFrame = true

/-- The controller has been told what ControllerState holds (42_display_controller R108): without a fault and physically set up, the
last blink command and the last dimming command in the history are the stored ones, and the first write is the oscillator
command. -/
abbrev State.ControllerAgrees (s : State) : Prop :=
  s.fault = none → s.disp.isSetup = true → s.disp.sim = false →
    lastCmd (isBlinkCmd s.cfg) s.history = some (blinkCmd s.cfg s.ctl.blink) ∧
    lastCmd (isDimCmd s.cfg) s.history = some (dimCmd s.cfg s.ctl.br) ∧
    (busWrites s.history).head? = some (s.cfg.cmdOscOn, [])

/-- The LED driver is physically set up and nothing has faulted. -/
abbrev State.LedReady (s : State) : Prop :=
  s.fault = none ∧ s.led.isSetup = true ∧ s.led.sim = false

/-- The display driver is physically set up and nothing has faulted. -/
abbrev State.DispReady (s : State) : Prop :=
  s.fault = none ∧ s.disp.isSetup = true ∧ s.disp.sim = false

/-- Nothing has faulted, and the LED driver's first physical use is still to come. -/
abbrev State.LedFresh (s : State) : Prop :=
  s.fault = none ∧ s.led.isSetup = false ∧ s.led.sim = false

/-- Nothing has faulted, and the display driver's first physical use is still to come. -/
abbrev State.DispFresh (s : State) : Prop :=
  s.fault = none ∧ s.disp.isSetup = false ∧ s.disp.sim = false

/-- The environment's next answers are successes, so many of each kind (40_lifecycle R85: "every collaborator call
succeeding"). -/
abbrev State.CallsSucceed (s : State) (claimCount busCount : Nat) : Prop :=
  (∀ k < claimCount, s.claimAt k = Reply.ok) ∧ (∀ k < busCount, s.busReplyAt k = Reply.ok)

/-- What belongs to one driver: its buffers and settings, its flags, its physical resource, its answers to come and its events
(00_scope R4, 10_state R34; 60_exceptions R140). -/
def SameDriver : Driver → State → State → Prop
  | .led, s, t =>
    s.px = t.px ∧ s.led = t.led ∧ s.lines = t.lines ∧ s.claims = t.claims ∧ s.csLevels = t.csLevels ∧
    eventsOf .led s.history = eventsOf .led t.history
  | .disp, s, t =>
    s.seg = t.seg ∧ s.ctl = t.ctl ∧ s.disp = t.disp ∧ s.bus = t.bus ∧ s.busReplies = t.busReplies ∧
    eventsOf .disp s.history = eventsOf .disp t.history

/-- The state that simulation must not change (40_lifecycle R85): buffers, settings, setup flags, fault. -/
abbrev SameBookkeeping (s t : State) : Prop :=
  s.px = t.px ∧ s.seg = t.seg ∧ s.ctl = t.ctl ∧ s.led.isSetup = t.led.isSetup ∧ s.disp.isSetup = t.disp.isSetup ∧
  s.fault = t.fault

/-- Two outcomes of one kind: next states that a relation holds of, or the same reason to stop. -/
def SameOutcome (rel : State → State → Prop) :
    Host.Outcome State Fault Refusal → Host.Outcome State Fault Refusal → Prop
  | .next s, .next t => rel s t
  | .fault f, .fault g => f = g
  | .refused f, .refused g => f = g
  | .next _, .fault _ | .next _, .refused _ | .fault _, .next _ | .fault _, .refused _ | .refused _, .next _
  | .refused _, .fault _ => False

/-- The operations that change only a buffer (40_lifecycle R86). -/
def isBufferOnly : Instr → Bool
  | .ledSetPixel .. | .ledSetAll .. | .ledSetBrightness _ | .ledClear => true
  | .dispSetDigitRaw .. | .dispSetDecimal .. | .dispSetDigit .. | .dispPrintStr .. => true
  | .ledSetup | .ledSetSimulation _ | .ledShow | .ledExit | .dispSetup | .dispSetSimulation _ | .dispSetBlink _
  | .dispSetBrightness _ | .dispWriteDisplay => false
  | .ledSof | .ledPixelWord .. | .ledEof | .i2cData _ | .i2cOscOn | .i2cBlink _ | .i2cDim _ => false

/-- The operations that set a simulation flag (40_lifecycle R82, R83). -/
def isSetSimulation : Instr → Bool
  | .ledSetSimulation _ | .dispSetSimulation _ => true
  | .ledSetPixel .. | .ledSetAll .. | .ledSetBrightness _ | .ledClear => false
  | .dispSetDigitRaw .. | .dispSetDecimal .. | .dispSetDigit .. | .dispPrintStr .. => false
  | .ledSetup | .ledShow | .ledExit | .dispSetup | .dispSetBlink _ | .dispSetBrightness _ | .dispWriteDisplay => false
  | .ledSof | .ledPixelWord .. | .ledEof | .i2cData _ | .i2cOscOn | .i2cBlink _ | .i2cDim _ => false

/-- The operations that need a physical resource, and so set up (40_lifecycle R86). -/
def needsResource : Instr → Bool
  | .ledSetup | .ledShow | .ledExit | .dispSetup | .dispSetBlink _ | .dispSetBrightness _ | .dispWriteDisplay => true
  | .ledSetPixel .. | .ledSetAll .. | .ledSetBrightness _ | .ledClear | .ledSetSimulation _ | .dispSetSimulation _ => false
  | .dispSetDigitRaw .. | .dispSetDecimal .. | .dispSetDigit .. | .dispPrintStr .. => false
  | .ledSof | .ledPixelWord .. | .ledEof | .i2cData _ | .i2cOscOn | .i2cBlink _ | .i2cDim _ => true

/-- The fault codes an instruction may record (60_exceptions R125); for a wire format, the codes of the primitives it stands for
(log 2). -/
def allowedCodes : Instr → List Nat
  | .ledSetup | .ledShow | .ledExit => [1]
  | .ledSetPixel .. | .ledSetAll .. | .ledSetBrightness _ => [4]
  | .ledClear => []
  | .ledSetSimulation _ | .dispSetSimulation _ => [8]
  | .dispSetup | .dispWriteDisplay => [2, 3]
  | .dispSetBlink _ => [5, 2, 3]
  | .dispSetBrightness _ => [6, 2, 3]
  | .dispSetDigitRaw .. | .dispSetDecimal .. => []
  | .dispSetDigit .. | .dispPrintStr .. => [7]
  | .ledSof | .ledPixelWord .. | .ledEof => [1]
  | .i2cData _ | .i2cOscOn | .i2cBlink _ | .i2cDim _ => [2, 3]

end Sys2Proof.Machine
end

