-- ==== Sys2Proof/Certificates/Slice0/Obligations.lean ====
section
/-! DEFINITION. The statements for the provers. Each docstring names the rule of spec/ it formalises; "the model's choice" marks a
clause that rests on a log entry and not on the spec. The open parameters are data in the state (`s.cfg`), so a statement over
every state holds for every value of them (00_scope R8). -/

open Sys2Proof Sys2Proof.Machine

/-! ## Encoding -/

/-- 30_encoding R54, whole: each selector of the map with a record of its row's types decodes to the row's operation, and no
other selector decodes to anything. -/
def Obligations.SelectorMapIsExact : Prop :=
  (∀ cfg : Config,
    decode cfg (.host 0x01#8 []) = .ok .ledSetup ∧
    (∀ v, decode cfg (.host 0x02#8 [.bool v]) = .ok (.ledSetSimulation v)) ∧
    (∀ index r g b q, Brightness.wf q = true →
      decode cfg (.host 0x10#8 [.nat index, .u8 r, .u8 g, .u8 b, .bright q]) = .ok (.ledSetPixel index r g b q)) ∧
    (∀ r g b q, Brightness.wf q = true →
      decode cfg (.host 0x11#8 [.u8 r, .u8 g, .u8 b, .bright q]) = .ok (.ledSetAll r g b q)) ∧
    (∀ q, Brightness.wf q = true → decode cfg (.host 0x12#8 [.bright q]) = .ok (.ledSetBrightness q)) ∧
    decode cfg (.host 0x13#8 []) = .ok .ledClear ∧
    decode cfg (.host 0x14#8 []) = .ok .ledShow ∧
    decode cfg (.host 0x15#8 []) = .ok .ledExit ∧
    decode cfg (.host 0x21#8 []) = .ok .dispSetup ∧
    (∀ v, decode cfg (.host 0x22#8 [.bool v]) = .ok (.dispSetSimulation v)) ∧
    (∀ code, decode cfg (.host 0x30#8 [.u8 code]) = .ok (.dispSetBlink code)) ∧
    (∀ level, decode cfg (.host 0x31#8 [.u8 level]) = .ok (.dispSetBrightness level)) ∧
    decode cfg (.host 0x32#8 []) = .ok .dispWriteDisplay ∧
    (∀ pos mask, decode cfg (.host 0x40#8 [.int pos, .u16 mask]) = .ok (.dispSetDigitRaw pos mask)) ∧
    (∀ pos on, decode cfg (.host 0x41#8 [.int pos, .bool on]) = .ok (.dispSetDecimal pos on)) ∧
    (∀ pos ch dp, decode cfg (.host 0x42#8 [.int pos, .char ch, .bool dp]) = .ok (.dispSetDigit pos ch dp)) ∧
    (∀ text jr, decode cfg (.host 0x43#8 [.text text, .bool jr]) = .ok (.dispPrintStr text jr))) ∧
  ∀ (cfg : Config) (selector : Byte) (operands : List Operand),
    selector ∉ [0x01#8, 0x02#8, 0x10#8, 0x11#8, 0x12#8, 0x13#8, 0x14#8, 0x15#8, 0x21#8, 0x22#8, 0x30#8, 0x31#8,
      0x32#8, 0x40#8, 0x41#8, 0x42#8, 0x43#8] →
    decode cfg (.host selector operands) = .error (.unknownSelector selector)

/-- 30_encoding R56, whole: every host request is exactly one of these: the encoding of a well-formed operation, which it decodes
to; a selector that spells no operation; a selector with a record that is no record of it. What decodes to nothing is refused, at
the boundary and not as a fault. -/
def Obligations.HostDecodingIsTotal : Prop :=
  (∀ (s : State) (selector : Byte) (operands : List Operand) (rest : List Request) (e : DecodeError),
    s.fault = none → s.inbox = .host selector operands :: rest → decode s.cfg (.host selector operands) = .error e →
      step s = .refused (.undecodable e)) ∧
  ∀ (cfg : Config) (selector : Byte) (operands : List Operand),
    (∃ i : Instr, i.isHost = true ∧ i.wf = true ∧ encode cfg i = .host selector operands ∧
      decode cfg (.host selector operands) = .ok i) ∨
    ((∀ (i : Instr) (any : List Operand), i.wf = true → encode cfg i ≠ .host selector any) ∧
      decode cfg (.host selector operands) = .error (.unknownSelector selector)) ∨
    ((∃ (i : Instr) (any : List Operand), i.wf = true ∧ encode cfg i = .host selector any) ∧
      (∀ i : Instr, i.wf = true → encode cfg i ≠ .host selector operands) ∧
      decode cfg (.host selector operands) = .error (.wrongOperands selector))

/-- Decoding an encoded well-formed instruction gives it back, for every operand, where the parameters' command bytes tell the
bus formats apart (30_encoding R76). -/
def Obligations.DecodeOfEncodeIsIdentity : Prop :=
  ∀ (cfg : Config) (i : Instr), cfg.CommandsDistinct → i.wf = true → decode cfg (encode cfg i) = .ok i

/-- What decodes to an instruction is the encoding of that instruction, which is well-formed. -/
def Obligations.EncodeOfDecodeIsIdentity : Prop :=
  ∀ (cfg : Config) (r : Request) (i : Instr), decode cfg r = .ok i → i.wf = true ∧ encode cfg i = r

/-- A few rows of the opcode table: the bits the table gives decode to the row's instruction (log 3 says how a row's bits are
laid out, the model's choice). -/
def Obligations.TableWordsDecode : Prop :=
  decodeTableWord 8 0x14 = some .ledShow ∧
  decodeTableWord 8 0x32 = some .dispWriteDisplay ∧
  decodeTableWord 8 0x40 = some (.dispSetDigitRaw 0 0#16) ∧
  decodeTableWord 32 0x00000000 = some .ledSof ∧
  decodeTableWord 32 0xF0563412 = some (.ledPixelWord 16#5 0x56#8 0x34#8 0x12#8) ∧
  decodeTableWord 36 0 = some .ledEof ∧
  decodeTableWord 8 0x85 = some (.i2cBlink .hz1) ∧
  decodeTableWord 8 0xE7 = some (.i2cDim 7#4) ∧
  decodeTableWord 8 0x50 = none

/-- 30_encoding R61 and R62: the pixel word as the rule's formula, its bits in the order sent as those of its four bytes, and
the control byte's fields. -/
def Obligations.PixelWordLayout : Prop :=
  ∀ (br : BitVec 5) (b g r : Byte),
    pixelWord br b g r = ((ctrlByte br).setWidth 32 <<< 24) ||| (b.setWidth 32 <<< 16) ||| (g.setWidth 32 <<< 8) ||| r.setWidth 32 ∧
    bitsMsb (pixelWord br b g r) = bitsMsb (ctrlByte br) ++ bitsMsb b ++ bitsMsb g ++ bitsMsb r ∧
    ctrlByte br = 0xE0#8 ||| br.setWidth 8 ∧
    (ctrlByte br).extractLsb' 5 3 = 0b111#3 ∧ (ctrlByte br).extractLsb' 0 5 = br ∧
    0xE0 ≤ (ctrlByte br).toNat ∧ (ctrlByte br).toNat ≤ 0xFF

/-! ## Steps -/

/-- A step runs the decoded instruction: the oldest request is taken from the inbox, decoded under the parameters, and run; one
that decodes to nothing is refused (00_scope R11, 30_encoding R56, 60_exceptions R127; the inbox is the model's choice, log 1). -/
def Obligations.StepRunsDecodedInstruction : Prop :=
  ∀ (s : State) (r : Request) (rest : List Request), s.fault = none → s.inbox = r :: rest →
    (∀ i : Instr, decode s.cfg r = .ok i → step s = exec i { s with inbox := rest }) ∧
    (∀ e : DecodeError, decode s.cfg r = .error e → step s = .refused (.undecodable e))

/-- 60_exceptions R130: with a fault recorded the block takes no further step, whatever the operation or the driver. -/
def Obligations.FaultedBlockIsStuck : Prop :=
  ∀ (s : State) (info : FaultInfo), s.fault = some info →
    step s = .fault (.stuck info) ∧ ∀ i : Instr, exec i s = .fault (.stuck info)

/-- 70_reset_and_hazards R144: with nothing asked of it the block waits. -/
def Obligations.EmptyInboxWaits : Prop :=
  (∀ s : State, s.fault = none → s.inbox = [] → step s = .next s) ∧
  ∀ cfg : Config, step (State.construct cfg) = .next (State.construct cfg)

/-- Without a recorded fault every instruction answers a next state, but for the text that `PRINT_RIGHT_LONG = Refuse` refuses, with
no step (43_glyph R118). -/
def Obligations.EveryInstructionAnswers : Prop :=
  ∀ (i : Instr) (s : State), s.fault = none →
    ((∃ t, exec i s = .next t) ↔
      ¬ ∃ text, i = .dispPrintStr text true ∧ 4 < text.length ∧ s.cfg.printRightLong = .refuse) ∧
    ∀ text, i = .dispPrintStr text true → 4 < text.length → s.cfg.printRightLong = .refuse →
      exec i s = .refused .printRightLong

/-! ## Reset -/

/-- 10_state R35, whole: the value of every element after construction, for every choice of the open parameters. -/
def Obligations.ConstructionLeavesResetValues : Prop :=
  ∀ cfg : Config,
    (State.construct cfg).px = cfg.pixelInit ∧ (State.construct cfg).seg = cfg.segInit ∧
    (State.construct cfg).ctl = { blink := cfg.blinkInit, br := cfg.dbrInit, initialized := false } ∧
    (State.construct cfg).led = { isSetup := false, sim := cfg.simLedInit } ∧
    (State.construct cfg).disp = { isSetup := false, sim := cfg.simDispInit } ∧
    (State.construct cfg).fault = none ∧
    (State.construct cfg).lines = { dat := .unclaimed, clk := .unclaimed, cs := .unclaimed } ∧
    (State.construct cfg).bus = .closed ∧ (State.construct cfg).history = []

/-- The invariants hold after construction, for every choice of the open parameters. -/
def Obligations.ConstructionMeetsInvariants : Prop :=
  ∀ cfg : Config,
    (State.construct cfg).LifecycleInv ∧ (State.construct cfg).NoCallUnlessSetUp ∧
    (State.construct cfg).BusTrafficLegal ∧ (State.construct cfg).FramesWhole ∧ (State.construct cfg).ControllerAgrees

/-! ## Invariants of every step -/

/-- Flags, lines and bus agree after every step (10_state R20, R25, R26; 40_lifecycle R78; 70_reset_and_hazards R154). -/
def Obligations.StepKeepsLifecycleInv : Prop :=
  ∀ s t : State, s.LifecycleInv → step s = .next t → t.LifecycleInv

/-- A driver that is not physically set up has made no collaborator call (40_lifecycle R78, R85; 10_state R27). -/
def Obligations.StepKeepsNoCallUnlessSetUp : Prop :=
  ∀ s t : State, s.NoCallUnlessSetUp → step s = .next t → t.NoCallUnlessSetUp

/-- 30_encoding R74, the bus part: no address but 0x70, no command byte outside the formats, no flush of other than 8 bytes. -/
def Obligations.StepKeepsBusTrafficLegal : Prop :=
  ∀ s t : State, s.cfg.Legal → s.BusTrafficLegal → step s = .next t → t.BusTrafficLegal

/-- 30_encoding R74, the LED part: every frame has 292 bits, zeros in SOF and EOF, and `111` in front of every word; and no
frame is left half sent by a step (20_memory R48). -/
def Obligations.StepKeepsFramesWhole : Prop :=
  ∀ s t : State, s.FramesWhole → step s = .next t → t.FramesWhole

/-- 42_display_controller R108: the last blink and dimming commands sent are the stored ones, and the first is the oscillator
command, after every step that runs a host operation, for both values of `CTL_ORDER`, where the command bytes differ. -/
def Obligations.HostStepKeepsControllerAgrees : Prop :=
  ∀ s t : State, s.cfg.CommandsDistinct → s.NoCallUnlessSetUp → (∀ r ∈ s.inbox.head?, r.isHost = true) →
    s.ControllerAgrees → step s = .next t → t.ControllerAgrees

/-- History is only appended to, parameters never change, no `is_setup` flag and no claimed line or open bus is ever given up
(10_state R22, R25, R26, R27; 43_glyph R111). -/
def Obligations.StepNeverGivesUp : Prop :=
  ∀ s t : State, step s = .next t →
    s.history <+: t.history ∧ t.cfg = s.cfg ∧
    (∀ d : Driver, (s.flags d).isSetup = true → t.flags d = s.flags d) ∧
    (s.lines.dat.isDriven = true → t.lines.dat.isDriven = true) ∧
    (s.lines.clk.isDriven = true → t.lines.clk.isDriven = true) ∧
    (s.lines.cs.isDriven = true → t.lines.cs.isDriven = true) ∧
    (s.bus = .opened 0x70#7 → t.bus = .opened 0x70#7)

/-- 60_exceptions R125, the right-hand column as a bound: an operation records no fault but those of its row (for a wire format,
those of its primitives: the model's choice, log 2). Codes 1, 2 and 3 come only when the driver is not simulated (R126). -/
def Obligations.FaultCodesOfEachOperation : Prop :=
  ∀ (i : Instr) (s t : State) (info : FaultInfo), s.fault = none → exec i s = .next t → t.fault = some info →
    info.code ∈ allowedCodes i ∧ (info.code ≤ 3 → (s.flags i.driver).sim = false)

/-! ## Lifecycle -/

/-- 40_lifecycle R82 and R83: before setup the flag changes freely; after it, writing the value it has is a no-op and another
value faults. -/
def Obligations.SimulationFlagRules : Prop :=
  ∀ (s : State) (v : Bool), s.fault = none →
    (s.led.isSetup = false → exec (.ledSetSimulation v) s = .next { s with led := { s.led with sim := v } }) ∧
    (s.led.isSetup = true → v = s.led.sim → exec (.ledSetSimulation v) s = .next s) ∧
    (s.led.isSetup = true → v ≠ s.led.sim →
      exec (.ledSetSimulation v) s = .next { s with fault := some (.simChangedAfterSetup .led v) }) ∧
    (s.disp.isSetup = false → exec (.dispSetSimulation v) s = .next { s with disp := { s.disp with sim := v } }) ∧
    (s.disp.isSetup = true → v = s.disp.sim → exec (.dispSetSimulation v) s = .next s) ∧
    (s.disp.isSetup = true → v ≠ s.disp.sim →
      exec (.dispSetSimulation v) s = .next { s with fault := some (.simChangedAfterSetup .disp v) })

/-- 40_lifecycle R78, R79, R81, R84: setting up again is a no-op; setting up in simulation records completion and does nothing else,
and so does a simulated `show`. -/
def Obligations.SetupOnceAndSimulated : Prop :=
  ∀ s : State, s.fault = none →
    (s.led.isSetup = true → exec .ledSetup s = .next s) ∧
    (s.led.isSetup = false → s.led.sim = true →
      exec .ledSetup s = .next { s with led := { isSetup := true, sim := true } }) ∧
    (s.led.sim = true → exec .ledShow s = .next { s with led := { isSetup := true, sim := true } }) ∧
    (s.disp.isSetup = true → exec .dispSetup s = .next s) ∧
    (s.disp.isSetup = false → s.disp.sim = true →
      exec .dispSetup s =
        .next { s with disp := { isSetup := true, sim := true }, ctl := { s.ctl with initialized := true } })

/-- 40_lifecycle R80, R81: the first LED setup claims DAT, CLK, CS in that order and leaves DAT and CLK low and CS at the drawn
level. -/
def Obligations.LedSetupClaimsLines : Prop :=
  ∀ s : State, s.LedFresh → (∀ k < 3, s.claimAt k = .ok) →
    exec .ledSetup s = .next { s with
      led := { isSetup := true, sim := false }
      lines := { dat := .driven .low, clk := .driven .low, cs := .driven s.nextCsLevel }
      history := s.history ++ [.claim .dat, .claim .clk, .claim .cs]
      claims := s.claims.skip 3
      csLevels := s.csLevels.skip 1 }

/-- 40_lifecycle R80, R87; 60_exceptions R129, R132, R134: the first claim that fails ends the operation there, with its event
in the history and the collaborator's error in the fault; the driver stays not set up and no frame is sent. `exit` has cleared
the colours before. -/
def Obligations.FailedClaimStopsOperation : Prop :=
  ∀ (s : State) (k : Nat) (line : Line) (e : CollabError), s.LedFresh →
    [Line.dat, .clk, .cs][k]? = some line → (∀ j < k, s.claimAt j = .ok) → s.claimAt k = .error e →
    let failed (u : State) : State := { u with
      history := u.history ++ [Event.claim .dat, .claim .clk, .claim .cs].take (k + 1)
      claims := u.claims.skip (k + 1)
      fault := some (.pinClaimFailed line e) }
    exec .ledSetup s = .next (failed s) ∧ exec .ledShow s = .next (failed s) ∧
    ∃ u, exec .ledClear s = .next u ∧ exec .ledExit s = .next (failed u)

/-- 40_lifecycle R84, 42_display_controller R103: the first display setup opens the bus, addresses 0x70, and sends the
oscillator, stored blink and stored dimming commands, in that order, with empty payloads. -/
def Obligations.DispSetupSequence : Prop :=
  ∀ s : State, s.DispFresh → (∀ k < 4, s.busReplyAt k = .ok) →
    exec .dispSetup s = .next { s with
      disp := { isSetup := true, sim := false }
      ctl := { s.ctl with initialized := true }
      bus := .opened 0x70#7
      history := s.history ++ [.busOpen, .addr 0x70#7, .write s.cfg.cmdOscOn [],
        .write (blinkCmd s.cfg s.ctl.blink) [], .write (dimCmd s.cfg s.ctl.br) []]
      busReplies := s.busReplies.skip 4 }

/-- 42_display_controller R103, 40_lifecycle R87, 60_exceptions R131, R132: an open or a setup write that fails ends the operation
there, inside `DISP.SETUP` and inside `DISP.WRITE_DISPLAY`, whose buffer is then not sent; the driver stays not set up. -/
def Obligations.FailedDispSetupStopsOperation : Prop :=
  ∀ (s : State) (e : CollabError) (i : Instr), s.DispFresh → i = .dispSetup ∨ i = .dispWriteDisplay →
    (s.busReplyAt 0 = .error e →
      exec i s = .next { s with
        history := s.history ++ [.busOpen], busReplies := s.busReplies.skip 1, fault := some (.busOpenFailed e) }) ∧
    ∀ (k : Nat) (cmd : Byte),
      [s.cfg.cmdOscOn, blinkCmd s.cfg s.ctl.blink, dimCmd s.cfg s.ctl.br][k]? = some cmd →
      (∀ j < k + 1, s.busReplyAt j = .ok) → s.busReplyAt (k + 1) = .error e →
      exec i s = .next { s with
        bus := .opened 0x70#7
        history := s.history ++ [Event.busOpen, .addr 0x70#7, .write s.cfg.cmdOscOn [],
          .write (blinkCmd s.cfg s.ctl.blink) [], .write (dimCmd s.cfg s.ctl.br) []].take (k + 3)
        busReplies := s.busReplies.skip (k + 2)
        fault := some (.busWriteFailed cmd e) }

/-- 40_lifecycle R86: an operation that needs the physical resource leaves its driver set up unless it faults, and no other host
operation changes an `is_setup` flag. -/
def Obligations.OnlyResourceOperationsSetUp : Prop :=
  ∀ (i : Instr) (s t : State), exec i s = .next t →
    (needsResource i = true → t.fault = none → (t.flags i.driver).isSetup = true) ∧
    (needsResource i = false → t.led.isSetup = s.led.isSetup ∧ t.disp.isSetup = s.disp.isSetup)

/-- 40_lifecycle R86, 41_led_chain R101, 42_display_controller R109: a buffer operation changes only its buffer (or records its
fault): no collaborator call, no setup, in either mode. -/
def Obligations.BufferOperationsTouchOnlyBuffer : Prop :=
  ∀ (i : Instr) (s t : State), isBufferOnly i = true → exec i s = .next t →
    (i.driver = .led → t = { s with px := t.px, fault := t.fault }) ∧
    (i.driver = .disp → t = { s with seg := t.seg, fault := t.fault })

/-- 40_lifecycle R85: any sequence of host operations, run simulated and run with every collaborator call succeeding, ends with
the same buffers, settings, setup flags and fault, and the simulated run makes no call. `SET_SIMULATION` itself is left out: it
compares the operand with the flag, so the two runs of it differ by R82. -/
def Obligations.SimulationInvariance : Prop :=
  ∀ (d : Driver) (ops : List Instr) (s : State),
    (∀ i ∈ ops, i.isHost = true ∧ i.driver = d ∧ isSetSimulation i = false) →
    (writeSim d false s).CallsSucceed 3 (5 * ops.length) →
    SameOutcome (fun t u => SameBookkeeping t u ∧ t.history = s.history)
      (execAll ops (writeSim d true s)) (execAll ops (writeSim d false s))

/-! ## The LED chain -/

/-- 41_led_chain R90, R89: a legal brightness and an index below 7 write that one record; an index of 7 or more is ignored; an
illegal brightness faults whatever the index, with nothing written. -/
def Obligations.SetPixelWritesOneRecord : Prop :=
  ∀ (s : State) (index : Nat) (r g b : Byte) (q : Brightness), s.fault = none →
    (legalBright q = true → index < 7 →
      ∃ t, exec (.ledSetPixel index r g b q) s = .next t ∧ t = { s with px := t.px } ∧
        ∀ (j : Nat) (h : j < 7),
          t.px[j] = if j = index then { r := r, g := g, b := b, br := quant s.cfg.quant q } else s.px[j]) ∧
    (legalBright q = true → 7 ≤ index → exec (.ledSetPixel index r g b q) s = .next s) ∧
    (legalBright q = false →
      exec (.ledSetPixel index r g b q) s = .next { s with fault := some (.ledBrightnessRange q) })

/-- 41_led_chain R91: every record is written with the same values; an illegal brightness faults with nothing written. -/
def Obligations.SetAllWritesEveryRecord : Prop :=
  ∀ (s : State) (r g b : Byte) (q : Brightness), s.fault = none →
    (legalBright q = true →
      ∃ t, exec (.ledSetAll r g b q) s = .next t ∧ t = { s with px := t.px } ∧
        ∀ (j : Nat) (h : j < 7), t.px[j] = { r := r, g := g, b := b, br := quant s.cfg.quant q }) ∧
    (legalBright q = false → exec (.ledSetAll r g b q) s = .next { s with fault := some (.ledBrightnessRange q) })

/-- 41_led_chain R92: only the level of every record is written, from this input alone (10_state R15). -/
def Obligations.SetBrightnessWritesOnlyLevels : Prop :=
  ∀ (s : State) (q : Brightness), s.fault = none →
    (legalBright q = true →
      ∃ t, exec (.ledSetBrightness q) s = .next t ∧ t = { s with px := t.px } ∧
        ∀ (j : Nat) (h : j < 7), t.px[j] = { s.px[j] with br := quant s.cfg.quant q }) ∧
    (legalBright q = false → exec (.ledSetBrightness q) s = .next { s with fault := some (.ledBrightnessRange q) })

/-- 41_led_chain R93: colours zero, levels bit for bit unchanged. -/
def Obligations.ClearKeepsLevels : Prop :=
  ∀ s : State, s.fault = none →
    ∃ t, exec .ledClear s = .next t ∧ t = { s with px := t.px } ∧
      ∀ (j : Nat) (h : j < 7), t.px[j] = { r := 0#8, g := 0#8, b := 0#8, br := s.px[j].br }

/-- 41_led_chain R88: under the exact quantizer the stored level is `floor(31·b + 1/2)`, never above 31, for every way of writing
the rational `b` in [0, 1]. -/
def Obligations.QuantizerIsExactRounding : Prop :=
  ∀ (q : Brightness) (num : Int) (den : Nat), brightValue q = some (num, den) → legalBright q = true →
    ((quant .exact q).toNat : Int) = ⌊(31 * ((num : ℚ) / (den : ℚ)) + 1 / 2 : ℚ)⌋ ∧
    ⌊(31 * ((num : ℚ) / (den : ℚ)) + 1 / 2 : ℚ)⌋ ≤ 31

/-- 92_eei_decisions D4: under the binary64 form too the level fits 5 bits without wrapping, 0 gives 0 and 1 gives 31. -/
def Obligations.BinaryQuantizerFitsFiveBits : Prop :=
  (∀ num den : Nat, 0 < den → num ≤ den → quantBinary64 num den ≤ 31) ∧
  (∀ den : Nat, 0 < den → quantBinary64 0 den = 0 ∧ quantBinary64 den den = 31)

/-- 41_led_chain R89: a brightness is legal exactly when it is a rational in [0, 1]; a binary64 NaN or infinity is none; an
illegal one faults in each operation that takes it, with nothing else written. The rational that a binary64 datum denotes, and which
data are NaN or an infinity, are IEEE 754's: PRESUMED, log 12. -/
def Obligations.LegalBrightnessIsUnitInterval : Prop :=
  (∀ q : Brightness, legalBright q = true ↔
    ∃ (num : Int) (den : Nat), brightValue q = some (num, den) ∧ (0 : ℚ) ≤ (num : ℚ) / (den : ℚ) ∧ (num : ℚ) / (den : ℚ) ≤ 1) ∧
  (∀ bits : BitVec 64, bits.extractLsb' 52 11 = 0x7FF#11 → legalBright (.f64 bits) = false) ∧
  ∀ (s : State) (q : Brightness) (i : Instr), s.fault = none → legalBright q = false →
    (∃ index r g b, i = .ledSetPixel index r g b q) ∨ (∃ r g b, i = .ledSetAll r g b q) ∨ i = .ledSetBrightness q →
      exec i s = .next { s with fault := some (.ledBrightnessRange q) }

/-- 41_led_chain R97: a `show` that is not simulated and does not fault appends exactly one segment, whose sampled stream is the
frame of the buffer at the time, on the first call and on every later one. -/
def Obligations.ShowAppendsOneFrame : Prop :=
  ∀ s t : State, s.fault = none → s.led.sim = false → exec .ledShow s = .next t → t.fault = none →
    ∃ evs, t.history = s.history ++ evs ∧ sampledStreams s.cfg.csActive evs = [frameBits s.px]

/-- 41_led_chain R95 with R94: `show` sets up, and then, unless that faulted or the driver is simulated, asserts CS, emits the bits of
the frame, five events each, and deasserts CS; DAT and CLK end low, and nothing else changes. That is 1462 events, with settle
waits of `292 × 2 × T_SETTLE` (70_reset_and_hazards R158). -/
def Obligations.ShowSetsUpThenSends : Prop :=
  ∀ s : State, s.fault = none →
    let frame (u : State) : List Event :=
      [Event.pin .cs u.cfg.csActive] ++
        ((frameBits u.px).flatMap fun v =>
          [Event.pin .dat (Level.ofBit v), .pin .clk .high, .settle, .pin .clk .low, .settle]) ++
        [Event.pin .cs u.cfg.csActive.not]
    let sent (u : State) : State := { u with
      lines := { dat := .driven .low, clk := .driven .low, cs := .driven u.cfg.csActive.not }
      history := u.history ++ frame u }
    (s.LedReady → exec .ledShow s = .next (sent s)) ∧
    (∃ u, exec .ledSetup s = .next u ∧
      exec .ledShow s = .next (if u.fault = none ∧ u.led.sim = false then sent u else u)) ∧
    (frame s).length = 1462 ∧ settleTime s.cfg (frame s) = 292 * 2 * s.cfg.tSettle

/-- 41_led_chain R95, 70_reset_and_hazards R149: the first `show` claims DAT, then CLK, then CS, and then sends the frame that a
later `show` of the same buffer sends. -/
def Obligations.FirstShowClaimsThenSends : Prop :=
  ∀ s : State, s.LedFresh → (∀ k < 3, s.claimAt k = .ok) →
    exec .ledShow s = .next { s with
      led := { isSetup := true, sim := false }
      lines := { dat := .driven .low, clk := .driven .low, cs := .driven s.cfg.csActive.not }
      history := s.history ++ [.claim .dat, .claim .clk, .claim .cs] ++ frameEvents s.cfg.csActive s.px
      claims := s.claims.skip 3
      csLevels := s.csLevels.skip 1 }

/-- 41_led_chain R98, whole: `exit` is `clear`, then `show`; once set up and not simulated it sends a frame of zero colours with the
levels kept, and leaves the buffer cleared. -/
def Obligations.ExitSendsDarkFrame : Prop :=
  (∀ s : State, s.fault = none → ∃ u, exec .ledClear s = .next u ∧ exec .ledExit s = exec .ledShow u) ∧
  ∀ s : State, s.LedReady →
    ∃ t evs, exec .ledExit s = .next t ∧ t.history = s.history ++ evs ∧
      t = { s with px := t.px, lines := t.lines, history := t.history } ∧
      sampledStreams s.cfg.csActive evs = [frameBits t.px] ∧
      ∀ (j : Nat) (h : j < 7), t.px[j] = { r := 0#8, g := 0#8, b := 0#8, br := s.px[j].br }

/-- 41_led_chain R96, whole: the frame of a buffer is 292 bits: 32 zeros, for each pixel in index order the control byte, blue, green
and red, each most significant bit first, and 36 zeros (30_encoding R59, R77). -/
def Obligations.FrameBitsLayout : Prop :=
  (∀ px : Vector Pixel 7,
    (frameBits px).length = 292 ∧
    (frameBits px).take 32 = List.replicate 32 false ∧
    (∀ (i : Nat) (h : i < 7),
      ((frameBits px).drop (32 + 32 * i)).take 32 =
        bitsMsb (0xE0#8 ||| px[i].br.setWidth 8) ++ bitsMsb px[i].b ++ bitsMsb px[i].g ++ bitsMsb px[i].r) ∧
    (frameBits px).drop 256 = List.replicate 36 false) ∧
  ∀ x : Byte, bitsMsb x = [x.getLsbD 7, x.getLsbD 6, x.getLsbD 5, x.getLsbD 4, x.getLsbD 3, x.getLsbD 2, x.getLsbD 1, x.getLsbD 0]

/-! ## The display controller -/

/-- 42_display_controller R105, whole, with R102: a code is supported exactly when it is a frequency's code; an unsupported code faults
in every state with nothing stored or sent; a supported one is stored, before or after setting up as `CTL_ORDER` says, and then
sent unless the driver is simulated; a failed setup ends the operation there, and a failed send is its fault. -/
def Obligations.SetBlinkStoresAndSends : Prop :=
  ∀ (s : State) (code : Byte), s.fault = none →
    (∀ f, s.cfg.Legal → (blinkDecode s.cfg code = some f ↔ code = s.cfg.blinkHost.get f)) ∧
    (blinkDecode s.cfg code = none →
      exec (.dispSetBlink code) s = .next { s with fault := some (.blinkUnsupported code) }) ∧
    ∀ f, blinkDecode s.cfg code = some f →
      let stored (u : State) : State := { u with ctl := { u.ctl with blink := f } }
      let sent (u : State) : State :=
        if u.disp.sim then u
        else { u with
          history := u.history ++ [.write (blinkCmd u.cfg f) []]
          busReplies := u.busReplies.skip 1
          fault := match u.busReplyAt 0 with
            | .ok => none
            | .error e => some (.busWriteFailed (blinkCmd u.cfg f) e) }
      (s.disp.isSetup = true → exec (.dispSetBlink code) s = .next (sent (stored s))) ∧
      (s.cfg.ctlOrder = .storeFirst → ∃ u, exec .dispSetup (stored s) = .next u ∧
        exec (.dispSetBlink code) s = .next (if u.fault = none then sent u else u)) ∧
      (s.cfg.ctlOrder = .setupFirst → ∃ u, exec .dispSetup s = .next u ∧
        exec (.dispSetBlink code) s = .next (if u.fault = none then sent (stored u) else u))

/-- 42_display_controller R106, whole: a level above 15 faults in every state with nothing stored or sent; one of 0..15 is stored, before
or after setting up as `CTL_ORDER` says, and then sent unless the driver is simulated; a failed setup ends the operation there, and
a failed send is its fault. -/
def Obligations.SetDisplayBrightnessStoresAndSends : Prop :=
  ∀ (s : State) (level : Byte), s.fault = none →
    (15 < level.toNat →
      exec (.dispSetBrightness level) s = .next { s with fault := some (.dispBrightnessRange level) }) ∧
    ∀ l : BitVec 4, level = l.setWidth 8 →
      let stored (u : State) : State := { u with ctl := { u.ctl with br := l } }
      let sent (u : State) : State :=
        if u.disp.sim then u
        else { u with
          history := u.history ++ [.write (dimCmd u.cfg l) []]
          busReplies := u.busReplies.skip 1
          fault := match u.busReplyAt 0 with
            | .ok => none
            | .error e => some (.busWriteFailed (dimCmd u.cfg l) e) }
      (s.disp.isSetup = true → exec (.dispSetBrightness level) s = .next (sent (stored s))) ∧
      (s.cfg.ctlOrder = .storeFirst → ∃ u, exec .dispSetup (stored s) = .next u ∧
        exec (.dispSetBrightness level) s = .next (if u.fault = none then sent u else u)) ∧
      (s.cfg.ctlOrder = .setupFirst → ∃ u, exec .dispSetup s = .next u ∧
        exec (.dispSetBrightness level) s = .next (if u.fault = none then sent (stored u) else u))

/-- 42_display_controller R104: on the first controller call the setup sends the new value under `StoreFirst` and the old one under
`SetupFirst`; both end with the same settings and the same last command. -/
def Obligations.FirstControllerCallOrder : Prop :=
  ∀ s : State, s.DispFresh → (∀ k < 5, s.busReplyAt k = .ok) →
    (∀ (code : Byte) (f : BlinkFreq), blinkDecode s.cfg code = some f →
      exec (.dispSetBlink code) s = .next { s with
        disp := { isSetup := true, sim := false }
        ctl := { blink := f, br := s.ctl.br, initialized := true }
        bus := .opened 0x70#7
        history := s.history ++ [.busOpen, .addr 0x70#7, .write s.cfg.cmdOscOn [],
          .write (blinkCmd s.cfg (match s.cfg.ctlOrder with | .storeFirst => f | .setupFirst => s.ctl.blink)) [],
          .write (dimCmd s.cfg s.ctl.br) [], .write (blinkCmd s.cfg f) []]
        busReplies := s.busReplies.skip 5 }) ∧
    (∀ l : BitVec 4,
      exec (.dispSetBrightness (l.setWidth 8)) s = .next { s with
        disp := { isSetup := true, sim := false }
        ctl := { blink := s.ctl.blink, br := l, initialized := true }
        bus := .opened 0x70#7
        history := s.history ++ [.busOpen, .addr 0x70#7, .write s.cfg.cmdOscOn [],
          .write (blinkCmd s.cfg s.ctl.blink) [],
          .write (dimCmd s.cfg (match s.cfg.ctlOrder with | .storeFirst => l | .setupFirst => s.ctl.br)) [],
          .write (dimCmd s.cfg l) []]
        busReplies := s.busReplies.skip 5 })

/-- 42_display_controller R107, whole, with 30_encoding R66 and 20_memory R45: `write_display` sets up, and then, unless that faulted or the
driver is simulated, sends the whole buffer in one write after command byte 0, in index order; a failed write is the fault. -/
def Obligations.WriteDisplaySendsBuffer : Prop :=
  ∀ s : State, s.fault = none →
    let sent (u : State) : State := { u with
      history := u.history ++
        [.write 0x00#8 [u.seg[0], u.seg[1], u.seg[2], u.seg[3], u.seg[4], u.seg[5], u.seg[6], u.seg[7]]]
      busReplies := u.busReplies.skip 1
      fault := match u.busReplyAt 0 with
        | .ok => none
        | .error e => some (.busWriteFailed 0x00#8 e) }
    (s.DispReady → exec .dispWriteDisplay s = .next (sent s)) ∧
    ∃ u, exec .dispSetup s = .next u ∧
      exec .dispWriteDisplay s = .next (if u.fault = none ∧ u.disp.sim = false then sent u else u)

/-- 42_display_controller R105 to R107 in simulation: the settings are stored, `is_setup` is set, nothing is sent. -/
def Obligations.SimulatedDisplaySendsNothing : Prop :=
  ∀ s : State, s.fault = none → s.disp.sim = true → s.InitializedAgrees →
    (∀ (code : Byte) (f : BlinkFreq), blinkDecode s.cfg code = some f →
      exec (.dispSetBlink code) s = .next { s with
        disp := { isSetup := true, sim := true }, ctl := { blink := f, br := s.ctl.br, initialized := true } }) ∧
    (∀ l : BitVec 4,
      exec (.dispSetBrightness (l.setWidth 8)) s = .next { s with
        disp := { isSetup := true, sim := true }, ctl := { blink := s.ctl.blink, br := l, initialized := true } }) ∧
    exec .dispWriteDisplay s = .next { s with
      disp := { isSetup := true, sim := true }, ctl := { s.ctl with initialized := true } }

/-! ## The glyph layer -/

/-- 43_glyph R114: in range, the two bytes hold the mask, low byte first, and reading them back gives it; every other byte is as it
was; out of range nothing happens. -/
def Obligations.SetDigitRawRoundTrip : Prop :=
  ∀ (s : State) (pos : Int) (mask : BitVec 16), s.fault = none →
    (∀ p : Fin 4, pos = (p.val : Int) →
      ∃ t, exec (.dispSetDigitRaw pos mask) s = .next t ∧ t = { s with seg := t.seg } ∧
        (∀ (j : Nat) (h : j < 8), t.seg[j] =
          if j = 2 * p.val then mask.extractLsb' 0 8
          else if j = 2 * p.val + 1 then mask.extractLsb' 8 8 else s.seg[j]) ∧
        readMask t.seg p = mask) ∧
    (pos < 0 ∨ 3 < pos → exec (.dispSetDigitRaw pos mask) s = .next s)

/-- 43_glyph R115: bit 6 of the position's high byte becomes `on`, every other bit of the buffer is as it was; out of range nothing
happens. -/
def Obligations.SetDecimalWritesOneBit : Prop :=
  ∀ (s : State) (pos : Int) (on : Bool), s.fault = none →
    (∀ p : Fin 4, pos = (p.val : Int) →
      ∃ t, exec (.dispSetDecimal pos on) s = .next t ∧ t = { s with seg := t.seg } ∧
        ∀ (j : Nat) (h : j < 8) (k : Nat), k < 8 → t.seg[j].getLsbD k =
          if j = 2 * p.val + 1 ∧ k = 6 then on else s.seg[j].getLsbD k) ∧
    (pos < 0 ∨ 3 < pos → exec (.dispSetDecimal pos on) s = .next s)

/-- 43_glyph R110, R113: a character has a glyph exactly when its code is 32..126, and it is that table entry. -/
def Obligations.LookupDomain : Prop :=
  ∀ (cfg : Config) (ch : Char),
    (∀ k : Fin 95, ch.toNat = 32 + k.val → lookup cfg ch = some cfg.glyph[k.val]) ∧
    (ch.toNat < 32 ∨ 126 < ch.toNat → lookup cfg ch = none)

/-- 43_glyph R116: a character without a glyph faults at any position; else, in range, the mask is stored with bit 14 set if a
decimal point is asked for and as the glyph has it if not; out of range nothing happens. -/
def Obligations.SetDigitStoresGlyph : Prop :=
  ∀ (s : State) (pos : Int) (ch : Char) (decimal : Bool), s.fault = none →
    (lookup s.cfg ch = none →
      exec (.dispSetDigit pos ch decimal) s = .next { s with fault := some (.glyphNotFound ch) }) ∧
    (∀ m, lookup s.cfg ch = some m →
      (∀ p : Fin 4, pos = (p.val : Int) →
        ∃ t, exec (.dispSetDigit pos ch decimal) s = .next t ∧ t = { s with seg := t.seg } ∧
          ∀ (j : Nat) (h : j < 8), t.seg[j] =
            if j = 2 * p.val then m.extractLsb' 0 8
            else if j = 2 * p.val + 1 then
              (if decimal then m.extractLsb' 8 8 ||| 0x40#8 else m.extractLsb' 8 8)
            else s.seg[j]) ∧
      (pos < 0 ∨ 3 < pos → exec (.dispSetDigit pos ch decimal) s = .next s))

/-- 43_glyph R117, R118, R119: when every character has a glyph (and the text is not refused), the character that lands on a
position 0..3 is stored there, and a position that none lands on keeps its bytes. -/
def Obligations.PrintStrPlacesCharacters : Prop :=
  ∀ (s : State) (text : List Char) (jr : Bool), s.fault = none → refusesText s.cfg text jr = false →
    (∀ ch ∈ text, lookup s.cfg ch ≠ none) →
    ∃ t, exec (.dispPrintStr text jr) s = .next t ∧ t = { s with seg := t.seg } ∧
      ∀ p : Fin 4,
        (∀ (i : Nat) (h : i < text.length), (p.val : Int) = (if jr then 4 - (text.length : Int) else 0) + i →
          lookup s.cfg text[i] = some (readMask t.seg p)) ∧
        ((∀ i : Nat, i < text.length → (p.val : Int) ≠ (if jr then 4 - (text.length : Int) else 0) + i) →
          readMask t.seg p = readMask s.seg p)

/-- 43_glyph R117, 60_exceptions R129: the first character without a glyph faults; the characters before it have been written and
nothing else has. -/
def Obligations.PrintStrFaultsMidway : Prop :=
  ∀ (s : State) (done rest : List Char) (ch : Char) (jr : Bool), s.fault = none →
    refusesText s.cfg (done ++ ch :: rest) jr = false →
    (∀ c ∈ done, lookup s.cfg c ≠ none) → lookup s.cfg ch = none →
    ∃ t, exec (.dispPrintStr (done ++ ch :: rest) jr) s = .next t ∧
      t = { s with seg := t.seg, fault := some (.glyphNotFound ch) } ∧
      ∀ p : Fin 4,
        (∀ (i : Nat) (h : i < done.length),
          (p.val : Int) = (if jr then 4 - ((done.length + rest.length + 1 : Nat) : Int) else 0) + i →
          lookup s.cfg done[i] = some (readMask t.seg p)) ∧
        ((∀ i : Nat, i < done.length →
          (p.val : Int) ≠ (if jr then 4 - ((done.length + rest.length + 1 : Nat) : Int) else 0) + i) →
          readMask t.seg p = readMask s.seg p)

/-! ## Composites and wire units -/

/-- 30_encoding R58, whole: each of the four composite operations gives the state and history that its expansion gives, a fault in the
middle included (43_glyph R117). The lookup runs before the expansion of `SET_DIGIT`; a text that `PRINT_RIGHT_LONG = Refuse` refuses
has none. -/
def Obligations.CompositesEqualExpansions : Prop :=
  ∀ s : State, s.fault = none →
    (∀ (r g b : Byte) (q : Brightness),
      exec (.ledSetAll r g b q) s = execExpansion ((List.range 7).map fun i => .ledSetPixel i r g b q) s) ∧
    exec .ledExit s = execExpansion [.ledClear, .ledShow] s ∧
    (∀ (pos : Int) (ch : Char) (decimal : Bool),
      (∀ m : BitVec 16, lookup s.cfg ch = some m →
        exec (.dispSetDigit pos ch decimal) s =
          execExpansion (.dispSetDigitRaw pos m :: if decimal then [.dispSetDecimal pos true] else []) s) ∧
      (lookup s.cfg ch = none →
        exec (.dispSetDigit pos ch decimal) s = .next { s with fault := some (.glyphNotFound ch) })) ∧
    ∀ (text : List Char) (jr : Bool), refusesText s.cfg text jr = false →
      exec (.dispPrintStr text jr) s =
        execExpansion (text.mapIdx fun i ch => .dispSetDigit ((if jr then 4 - (text.length : Int) else 0) + i) ch false) s

/-- 30_encoding R60, R61, R63: each unit of the LED frame, standing alone on a driver that is set up (log 2, the model's choice),
appends its bits and leaves CLK low, DAT at the last bit and CS alone. -/
def Obligations.LedUnitsAppendTheirBits : Prop :=
  ∀ s : State, s.LedReady →
    let sends (i : Instr) (bits : List Bool) (last : Level) : Prop :=
      ∃ evs, exec i s = .next { s with
          lines := { s.lines with dat := .driven last, clk := .driven .low }
          history := s.history ++ evs } ∧
        ∀ active : Level,
          sampledStreams active ([.pin .cs active] ++ evs ++ [.pin .cs active.not]) = [bits]
    sends .ledSof (List.replicate 32 false) .low ∧
    sends .ledEof (List.replicate 36 false) .low ∧
    ∀ (br : BitVec 5) (b g r : Byte),
      sends (.ledPixelWord br b g r) (bitsMsb (pixelWord br b g r)) (Level.ofBit (r.getLsbD 0))

/-- 30_encoding R65 to R69: each bus format, standing alone on a driver that is set up (log 2, the model's choice), is one bus write
with its command byte and its payload, the buffer for the data command and empty for the others, and a failed write is the fault. -/
def Obligations.BusUnitsAreOneWrite : Prop :=
  ∀ s : State, s.DispReady →
    let sends (i : Instr) (cmd : Byte) (payload : List Byte) : Prop :=
      exec i s = .next { s with
        history := s.history ++ [.write cmd payload]
        busReplies := s.busReplies.skip 1
        fault := match s.busReplyAt 0 with
          | .ok => none
          | .error e => some (.busWriteFailed cmd e) }
    (∀ payload : Vector Byte 8, sends (.i2cData payload) 0x00#8
      [s.seg[0], s.seg[1], s.seg[2], s.seg[3], s.seg[4], s.seg[5], s.seg[6], s.seg[7]]) ∧
    sends .i2cOscOn s.cfg.cmdOscOn [] ∧
    (∀ f : BlinkFreq, sends (.i2cBlink f) (s.cfg.cmdBlinkBase ||| ((s.cfg.blinkCode.get f).setWidth 8 <<< 1)) []) ∧
    (∀ level : BitVec 4, sends (.i2cDim level) (s.cfg.cmdDimBase ||| level.setWidth 8) [])

/-- A wire unit on a driver that is not set up sets it up first and stops if that faults; on a simulated driver it sends nothing (log
2, the model's choice, after 40_lifecycle R78, R79, R86). -/
def Obligations.WireUnitsSetUpFirst : Prop :=
  ∀ (s : State) (i setup : Instr), s.fault = none → i.isHost = false →
    setup = (match i.driver with | .led => .ledSetup | .disp => .dispSetup) →
    ((s.flags i.driver).isSetup = true → (s.flags i.driver).sim = true → exec i s = .next s) ∧
    ∀ u, exec setup s = .next u →
      (u.fault = none → exec i s = exec i u) ∧ (u.fault ≠ none → exec i s = .next u)

/-- 41_led_chain R95 and 42_display_controller R107 by their wire units: `show` is CS asserted, SOF, the seven pixel words in index
order, EOF, CS deasserted; `write_display` is the data format, whose payload is the buffer. -/
def Obligations.ShowIsItsWireUnits : Prop :=
  (∀ s : State, s.LedReady →
    ∃ u, execAll (.ledSof :: (s.px.toList.map fun p => .ledPixelWord p.br p.b p.g p.r) ++ [.ledEof])
        (pinWrite .cs s.cfg.csActive s) = .next u ∧
      exec .ledShow s = .next (pinWrite .cs s.cfg.csActive.not u)) ∧
  ∀ (s : State) (payload : Vector Byte 8), exec .dispWriteDisplay s = exec (.i2cData payload) s

/-! ## The two drivers -/

/-- 10_state R21, R34; 92_eei_decisions D36: an instruction of one driver leaves everything of the other as it was, and what it does
to its own depends on nothing of the other. -/
def Obligations.DriversDoNotInterfere : Prop :=
  ∀ (i : Instr) (s t : State), exec i s = .next t →
    (i.driver = .led → SameDriver .disp t s) ∧ (i.driver = .disp → SameDriver .led t s) ∧
    ∀ u : State, SameDriver i.driver u s → u.cfg = s.cfg → u.fault = s.fault →
      ∃ v, exec i u = .next v ∧ SameDriver i.driver v t ∧ v.fault = t.fault

/-- 60_exceptions R140: a program that interleaves the two drivers' operations, and does not fault, leaves each driver as that
driver's operations alone, in order, leave it. -/
def Obligations.InterleavingIsIndependent : Prop :=
  ∀ (ops : List Instr) (s t : State) (d : Driver), execAll ops s = .next t → t.fault = none →
    ∃ u, execAll (ops.filter fun i => i.driver == d) s = .next u ∧ SameDriver d u t ∧ u.fault = none

/-! ## The output and the buffers -/

/-- 30_encoding R77, whole: in the events that an instruction appends, every frame's bytes `4 + 4i` to `7 + 4i` are the control byte,
blue, green and red of pixel `i`, and every data write's bytes `2p` and `2p + 1` are position `p`'s mask, low byte first. The buffers are
those after the instruction: `show` and `write_display` do not write them, and `exit` sends what its `clear` left. That the wire format
I2C.DATA standing alone sends the buffer too is the model's choice (log 2). -/
def Obligations.OutputCarriesTheBuffers : Prop :=
  ∀ (i : Instr) (s t : State), exec i s = .next t →
    ∃ evs, t.history = s.history ++ evs ∧
      (∀ bits ∈ sampledStreams s.cfg.csActive evs, ∀ (k : Nat) (h : k < 7),
        let byte (n : Nat) : List Bool := (bits.drop (8 * n)).take 8
        byte (4 + 4 * k) = bitsMsb (ctrlByte t.px[k].br) ∧ byte (5 + 4 * k) = bitsMsb t.px[k].b ∧
        byte (6 + 4 * k) = bitsMsb t.px[k].g ∧ byte (7 + 4 * k) = bitsMsb t.px[k].r) ∧
      (∀ cmd payload, (cmd, payload) ∈ busWrites evs → payload ≠ [] →
        cmd = 0x00#8 ∧ payload.length = 8 ∧
        ∀ p : Fin 4, ∃ lo hi, payload[2 * p.val]? = some lo ∧ payload[2 * p.val + 1]? = some hi ∧
          lo.setWidth 16 ||| (hi.setWidth 16 <<< 8) = readMask t.seg p) ∧
      (i = .ledShow ∨ i = .dispWriteDisplay → t.px = s.px ∧ t.seg = s.seg)
end

