-- ==== Sys2Proof/Laws/Encoding.lean ====
section
/-! SUPPORT. The small lemmas of the bit and command encodings. -/

namespace Sys2Proof

@[simp] theorem bitsMsb_length {n : Nat} (v : BitVec n) : (bitsMsb v).length = n := by
  simp [bitsMsb]

theorem bitsMsb_get {n : Nat} (v : BitVec n) (k : Nat) (h : k < (bitsMsb v).length) :
    (bitsMsb v)[k] = v.getMsbD k := by
  simp [bitsMsb]

/-- The bits of a concatenation are the bits of its parts in order. -/
theorem bitsMsb_append {m n : Nat} (x : BitVec m) (y : BitVec n) : bitsMsb (x ++ y) = bitsMsb x ++ bitsMsb y := by
  apply List.ext_getElem
  · simp
  · intro k h1 h2
    rw [bitsMsb_get, List.getElem_append]
    simp only [bitsMsb_length] at h1 ⊢
    by_cases h : k < m
    · simp [h, bitsMsb_get, BitVec.getMsbD_append]
    · simp [h, bitsMsb_get, BitVec.getMsbD_append]

theorem natOfBits_append (xs ys : List Bool) :
    natOfBits (xs ++ ys) = natOfBits xs * 2 ^ ys.length + natOfBits ys := by
  have aux : ∀ (bits : List Bool) (a : Nat),
      bits.foldl (fun acc b => 2 * acc + b.toNat) a = a * 2 ^ bits.length + natOfBits bits := by
    intro bits
    induction bits with
    | nil => intro a; simp [natOfBits]
    | cons b bs ih =>
      intro a
      simp only [natOfBits, List.foldl_cons, List.length_cons]
      rw [ih, ih (2 * 0 + b.toNat)]
      ring
  unfold natOfBits
  rw [List.foldl_append, aux ys]
  rfl

/-- Reading the bits of a word as a number gives the word. -/
theorem natOfBits_bitsMsb {n : Nat} (v : BitVec n) : natOfBits (bitsMsb v) = v.toNat := by
  induction n with
  | zero => simp [bitsMsb, natOfBits, BitVec.of_length_zero]
  | succ n ih =>
    have hlist : bitsMsb v = [v.msb] ++ bitsMsb (v.setWidth n) := by
      apply List.ext_getElem
      · simp
      · intro k h1 h2
        rw [bitsMsb_get]
        cases k with
        | zero => simp [BitVec.msb]
        | succ k =>
          simp only [bitsMsb_length] at h1
          have hk : k < n := by omega
          simp only [List.singleton_append, List.getElem_cons_succ, bitsMsb_get]
          simp only [BitVec.getMsbD, BitVec.getLsbD_setWidth]
          have e : n - (k + 1) = n - 1 - k := by omega
          have hlt : n - 1 - k < n := by omega
          simp only [h1, hk, hlt, Nat.add_sub_cancel, e, decide_true, Bool.true_and]
    rw [hlist, natOfBits_append, ih]
    have hmsb : v.toNat = v.msb.toNat * 2 ^ n + (v.setWidth n).toNat := by
      have := congrArg BitVec.toNat (BitVec.cons_msb_setWidth v)
      rw [BitVec.toNat_cons'] at this
      rw [← this, Nat.shiftLeft_eq]
    rw [hmsb]
    simp [natOfBits]

end Sys2Proof
end

