-- ==== Sys2Proof/Laws/State.lean ====
section
/-! SUPPORT. One lemma per field per update of the state, true by rfl, so that no proof unfolds a record update. -/

namespace Sys2Proof.Machine

section
variable (s : State) (v w : Vector Pixel 7)
@[simp] theorem State.withPx_px : (s.withPx v).px = v := rfl
@[simp] theorem State.withPx_seg : (s.withPx v).seg = s.seg := rfl
@[simp] theorem State.withPx_ctl : (s.withPx v).ctl = s.ctl := rfl
@[simp] theorem State.withPx_led : (s.withPx v).led = s.led := rfl
@[simp] theorem State.withPx_disp : (s.withPx v).disp = s.disp := rfl
@[simp] theorem State.withPx_lines : (s.withPx v).lines = s.lines := rfl
@[simp] theorem State.withPx_bus : (s.withPx v).bus = s.bus := rfl
@[simp] theorem State.withPx_fault : (s.withPx v).fault = s.fault := rfl
@[simp] theorem State.withPx_history : (s.withPx v).history = s.history := rfl
@[simp] theorem State.withPx_cfg : (s.withPx v).cfg = s.cfg := rfl
@[simp] theorem State.withPx_inbox : (s.withPx v).inbox = s.inbox := rfl
@[simp] theorem State.withPx_claims : (s.withPx v).claims = s.claims := rfl
@[simp] theorem State.withPx_csLevels : (s.withPx v).csLevels = s.csLevels := rfl
@[simp] theorem State.withPx_busReplies : (s.withPx v).busReplies = s.busReplies := rfl
@[simp] theorem State.withPx_withPx : (s.withPx v).withPx w = s.withPx w := rfl
@[simp] theorem State.withPx_self : s.withPx s.px = s := rfl
end

section
variable (s : State) (v w : Vector Byte 8)
@[simp] theorem State.withSeg_px : (s.withSeg v).px = s.px := rfl
@[simp] theorem State.withSeg_seg : (s.withSeg v).seg = v := rfl
@[simp] theorem State.withSeg_ctl : (s.withSeg v).ctl = s.ctl := rfl
@[simp] theorem State.withSeg_led : (s.withSeg v).led = s.led := rfl
@[simp] theorem State.withSeg_disp : (s.withSeg v).disp = s.disp := rfl
@[simp] theorem State.withSeg_lines : (s.withSeg v).lines = s.lines := rfl
@[simp] theorem State.withSeg_bus : (s.withSeg v).bus = s.bus := rfl
@[simp] theorem State.withSeg_fault : (s.withSeg v).fault = s.fault := rfl
@[simp] theorem State.withSeg_history : (s.withSeg v).history = s.history := rfl
@[simp] theorem State.withSeg_cfg : (s.withSeg v).cfg = s.cfg := rfl
@[simp] theorem State.withSeg_inbox : (s.withSeg v).inbox = s.inbox := rfl
@[simp] theorem State.withSeg_claims : (s.withSeg v).claims = s.claims := rfl
@[simp] theorem State.withSeg_csLevels : (s.withSeg v).csLevels = s.csLevels := rfl
@[simp] theorem State.withSeg_busReplies : (s.withSeg v).busReplies = s.busReplies := rfl
@[simp] theorem State.withSeg_withSeg : (s.withSeg v).withSeg w = s.withSeg w := rfl
@[simp] theorem State.withSeg_self : s.withSeg s.seg = s := rfl
end

section
variable (s : State) (v w : Ctl)
@[simp] theorem State.withCtl_px : (s.withCtl v).px = s.px := rfl
@[simp] theorem State.withCtl_seg : (s.withCtl v).seg = s.seg := rfl
@[simp] theorem State.withCtl_ctl : (s.withCtl v).ctl = v := rfl
@[simp] theorem State.withCtl_led : (s.withCtl v).led = s.led := rfl
@[simp] theorem State.withCtl_disp : (s.withCtl v).disp = s.disp := rfl
@[simp] theorem State.withCtl_lines : (s.withCtl v).lines = s.lines := rfl
@[simp] theorem State.withCtl_bus : (s.withCtl v).bus = s.bus := rfl
@[simp] theorem State.withCtl_fault : (s.withCtl v).fault = s.fault := rfl
@[simp] theorem State.withCtl_history : (s.withCtl v).history = s.history := rfl
@[simp] theorem State.withCtl_cfg : (s.withCtl v).cfg = s.cfg := rfl
@[simp] theorem State.withCtl_inbox : (s.withCtl v).inbox = s.inbox := rfl
@[simp] theorem State.withCtl_claims : (s.withCtl v).claims = s.claims := rfl
@[simp] theorem State.withCtl_csLevels : (s.withCtl v).csLevels = s.csLevels := rfl
@[simp] theorem State.withCtl_busReplies : (s.withCtl v).busReplies = s.busReplies := rfl
@[simp] theorem State.withCtl_withCtl : (s.withCtl v).withCtl w = s.withCtl w := rfl
@[simp] theorem State.withCtl_self : s.withCtl s.ctl = s := rfl
end

section
variable (s : State) (v w : LifecycleFlags)
@[simp] theorem State.withLed_px : (s.withLed v).px = s.px := rfl
@[simp] theorem State.withLed_seg : (s.withLed v).seg = s.seg := rfl
@[simp] theorem State.withLed_ctl : (s.withLed v).ctl = s.ctl := rfl
@[simp] theorem State.withLed_led : (s.withLed v).led = v := rfl
@[simp] theorem State.withLed_disp : (s.withLed v).disp = s.disp := rfl
@[simp] theorem State.withLed_lines : (s.withLed v).lines = s.lines := rfl
@[simp] theorem State.withLed_bus : (s.withLed v).bus = s.bus := rfl
@[simp] theorem State.withLed_fault : (s.withLed v).fault = s.fault := rfl
@[simp] theorem State.withLed_history : (s.withLed v).history = s.history := rfl
@[simp] theorem State.withLed_cfg : (s.withLed v).cfg = s.cfg := rfl
@[simp] theorem State.withLed_inbox : (s.withLed v).inbox = s.inbox := rfl
@[simp] theorem State.withLed_claims : (s.withLed v).claims = s.claims := rfl
@[simp] theorem State.withLed_csLevels : (s.withLed v).csLevels = s.csLevels := rfl
@[simp] theorem State.withLed_busReplies : (s.withLed v).busReplies = s.busReplies := rfl
@[simp] theorem State.withLed_withLed : (s.withLed v).withLed w = s.withLed w := rfl
@[simp] theorem State.withLed_self : s.withLed s.led = s := rfl
end

section
variable (s : State) (v w : LifecycleFlags)
@[simp] theorem State.withDisp_px : (s.withDisp v).px = s.px := rfl
@[simp] theorem State.withDisp_seg : (s.withDisp v).seg = s.seg := rfl
@[simp] theorem State.withDisp_ctl : (s.withDisp v).ctl = s.ctl := rfl
@[simp] theorem State.withDisp_led : (s.withDisp v).led = s.led := rfl
@[simp] theorem State.withDisp_disp : (s.withDisp v).disp = v := rfl
@[simp] theorem State.withDisp_lines : (s.withDisp v).lines = s.lines := rfl
@[simp] theorem State.withDisp_bus : (s.withDisp v).bus = s.bus := rfl
@[simp] theorem State.withDisp_fault : (s.withDisp v).fault = s.fault := rfl
@[simp] theorem State.withDisp_history : (s.withDisp v).history = s.history := rfl
@[simp] theorem State.withDisp_cfg : (s.withDisp v).cfg = s.cfg := rfl
@[simp] theorem State.withDisp_inbox : (s.withDisp v).inbox = s.inbox := rfl
@[simp] theorem State.withDisp_claims : (s.withDisp v).claims = s.claims := rfl
@[simp] theorem State.withDisp_csLevels : (s.withDisp v).csLevels = s.csLevels := rfl
@[simp] theorem State.withDisp_busReplies : (s.withDisp v).busReplies = s.busReplies := rfl
@[simp] theorem State.withDisp_withDisp : (s.withDisp v).withDisp w = s.withDisp w := rfl
@[simp] theorem State.withDisp_self : s.withDisp s.disp = s := rfl
end

section
variable (s : State) (v w : Lines)
@[simp] theorem State.withLines_px : (s.withLines v).px = s.px := rfl
@[simp] theorem State.withLines_seg : (s.withLines v).seg = s.seg := rfl
@[simp] theorem State.withLines_ctl : (s.withLines v).ctl = s.ctl := rfl
@[simp] theorem State.withLines_led : (s.withLines v).led = s.led := rfl
@[simp] theorem State.withLines_disp : (s.withLines v).disp = s.disp := rfl
@[simp] theorem State.withLines_lines : (s.withLines v).lines = v := rfl
@[simp] theorem State.withLines_bus : (s.withLines v).bus = s.bus := rfl
@[simp] theorem State.withLines_fault : (s.withLines v).fault = s.fault := rfl
@[simp] theorem State.withLines_history : (s.withLines v).history = s.history := rfl
@[simp] theorem State.withLines_cfg : (s.withLines v).cfg = s.cfg := rfl
@[simp] theorem State.withLines_inbox : (s.withLines v).inbox = s.inbox := rfl
@[simp] theorem State.withLines_claims : (s.withLines v).claims = s.claims := rfl
@[simp] theorem State.withLines_csLevels : (s.withLines v).csLevels = s.csLevels := rfl
@[simp] theorem State.withLines_busReplies : (s.withLines v).busReplies = s.busReplies := rfl
@[simp] theorem State.withLines_withLines : (s.withLines v).withLines w = s.withLines w := rfl
@[simp] theorem State.withLines_self : s.withLines s.lines = s := rfl
end

section
variable (s : State) (v w : BusState)
@[simp] theorem State.withBus_px : (s.withBus v).px = s.px := rfl
@[simp] theorem State.withBus_seg : (s.withBus v).seg = s.seg := rfl
@[simp] theorem State.withBus_ctl : (s.withBus v).ctl = s.ctl := rfl
@[simp] theorem State.withBus_led : (s.withBus v).led = s.led := rfl
@[simp] theorem State.withBus_disp : (s.withBus v).disp = s.disp := rfl
@[simp] theorem State.withBus_lines : (s.withBus v).lines = s.lines := rfl
@[simp] theorem State.withBus_bus : (s.withBus v).bus = v := rfl
@[simp] theorem State.withBus_fault : (s.withBus v).fault = s.fault := rfl
@[simp] theorem State.withBus_history : (s.withBus v).history = s.history := rfl
@[simp] theorem State.withBus_cfg : (s.withBus v).cfg = s.cfg := rfl
@[simp] theorem State.withBus_inbox : (s.withBus v).inbox = s.inbox := rfl
@[simp] theorem State.withBus_claims : (s.withBus v).claims = s.claims := rfl
@[simp] theorem State.withBus_csLevels : (s.withBus v).csLevels = s.csLevels := rfl
@[simp] theorem State.withBus_busReplies : (s.withBus v).busReplies = s.busReplies := rfl
@[simp] theorem State.withBus_withBus : (s.withBus v).withBus w = s.withBus w := rfl
@[simp] theorem State.withBus_self : s.withBus s.bus = s := rfl
end

section
variable (s : State) (v w : Option FaultInfo)
@[simp] theorem State.withFault_px : (s.withFault v).px = s.px := rfl
@[simp] theorem State.withFault_seg : (s.withFault v).seg = s.seg := rfl
@[simp] theorem State.withFault_ctl : (s.withFault v).ctl = s.ctl := rfl
@[simp] theorem State.withFault_led : (s.withFault v).led = s.led := rfl
@[simp] theorem State.withFault_disp : (s.withFault v).disp = s.disp := rfl
@[simp] theorem State.withFault_lines : (s.withFault v).lines = s.lines := rfl
@[simp] theorem State.withFault_bus : (s.withFault v).bus = s.bus := rfl
@[simp] theorem State.withFault_fault : (s.withFault v).fault = v := rfl
@[simp] theorem State.withFault_history : (s.withFault v).history = s.history := rfl
@[simp] theorem State.withFault_cfg : (s.withFault v).cfg = s.cfg := rfl
@[simp] theorem State.withFault_inbox : (s.withFault v).inbox = s.inbox := rfl
@[simp] theorem State.withFault_claims : (s.withFault v).claims = s.claims := rfl
@[simp] theorem State.withFault_csLevels : (s.withFault v).csLevels = s.csLevels := rfl
@[simp] theorem State.withFault_busReplies : (s.withFault v).busReplies = s.busReplies := rfl
@[simp] theorem State.withFault_withFault : (s.withFault v).withFault w = s.withFault w := rfl
@[simp] theorem State.withFault_self : s.withFault s.fault = s := rfl
end

section
variable (s : State) (v w : List Event)
@[simp] theorem State.withHistory_px : (s.withHistory v).px = s.px := rfl
@[simp] theorem State.withHistory_seg : (s.withHistory v).seg = s.seg := rfl
@[simp] theorem State.withHistory_ctl : (s.withHistory v).ctl = s.ctl := rfl
@[simp] theorem State.withHistory_led : (s.withHistory v).led = s.led := rfl
@[simp] theorem State.withHistory_disp : (s.withHistory v).disp = s.disp := rfl
@[simp] theorem State.withHistory_lines : (s.withHistory v).lines = s.lines := rfl
@[simp] theorem State.withHistory_bus : (s.withHistory v).bus = s.bus := rfl
@[simp] theorem State.withHistory_fault : (s.withHistory v).fault = s.fault := rfl
@[simp] theorem State.withHistory_history : (s.withHistory v).history = v := rfl
@[simp] theorem State.withHistory_cfg : (s.withHistory v).cfg = s.cfg := rfl
@[simp] theorem State.withHistory_inbox : (s.withHistory v).inbox = s.inbox := rfl
@[simp] theorem State.withHistory_claims : (s.withHistory v).claims = s.claims := rfl
@[simp] theorem State.withHistory_csLevels : (s.withHistory v).csLevels = s.csLevels := rfl
@[simp] theorem State.withHistory_busReplies : (s.withHistory v).busReplies = s.busReplies := rfl
@[simp] theorem State.withHistory_withHistory : (s.withHistory v).withHistory w = s.withHistory w := rfl
@[simp] theorem State.withHistory_self : s.withHistory s.history = s := rfl
end

section
variable (s : State) (v w : List Request)
@[simp] theorem State.withInbox_px : (s.withInbox v).px = s.px := rfl
@[simp] theorem State.withInbox_seg : (s.withInbox v).seg = s.seg := rfl
@[simp] theorem State.withInbox_ctl : (s.withInbox v).ctl = s.ctl := rfl
@[simp] theorem State.withInbox_led : (s.withInbox v).led = s.led := rfl
@[simp] theorem State.withInbox_disp : (s.withInbox v).disp = s.disp := rfl
@[simp] theorem State.withInbox_lines : (s.withInbox v).lines = s.lines := rfl
@[simp] theorem State.withInbox_bus : (s.withInbox v).bus = s.bus := rfl
@[simp] theorem State.withInbox_fault : (s.withInbox v).fault = s.fault := rfl
@[simp] theorem State.withInbox_history : (s.withInbox v).history = s.history := rfl
@[simp] theorem State.withInbox_cfg : (s.withInbox v).cfg = s.cfg := rfl
@[simp] theorem State.withInbox_inbox : (s.withInbox v).inbox = v := rfl
@[simp] theorem State.withInbox_claims : (s.withInbox v).claims = s.claims := rfl
@[simp] theorem State.withInbox_csLevels : (s.withInbox v).csLevels = s.csLevels := rfl
@[simp] theorem State.withInbox_busReplies : (s.withInbox v).busReplies = s.busReplies := rfl
@[simp] theorem State.withInbox_withInbox : (s.withInbox v).withInbox w = s.withInbox w := rfl
@[simp] theorem State.withInbox_self : s.withInbox s.inbox = s := rfl
end

section
variable (s : State) (v w : Draws Reply)
@[simp] theorem State.withClaims_px : (s.withClaims v).px = s.px := rfl
@[simp] theorem State.withClaims_seg : (s.withClaims v).seg = s.seg := rfl
@[simp] theorem State.withClaims_ctl : (s.withClaims v).ctl = s.ctl := rfl
@[simp] theorem State.withClaims_led : (s.withClaims v).led = s.led := rfl
@[simp] theorem State.withClaims_disp : (s.withClaims v).disp = s.disp := rfl
@[simp] theorem State.withClaims_lines : (s.withClaims v).lines = s.lines := rfl
@[simp] theorem State.withClaims_bus : (s.withClaims v).bus = s.bus := rfl
@[simp] theorem State.withClaims_fault : (s.withClaims v).fault = s.fault := rfl
@[simp] theorem State.withClaims_history : (s.withClaims v).history = s.history := rfl
@[simp] theorem State.withClaims_cfg : (s.withClaims v).cfg = s.cfg := rfl
@[simp] theorem State.withClaims_inbox : (s.withClaims v).inbox = s.inbox := rfl
@[simp] theorem State.withClaims_claims : (s.withClaims v).claims = v := rfl
@[simp] theorem State.withClaims_csLevels : (s.withClaims v).csLevels = s.csLevels := rfl
@[simp] theorem State.withClaims_busReplies : (s.withClaims v).busReplies = s.busReplies := rfl
@[simp] theorem State.withClaims_withClaims : (s.withClaims v).withClaims w = s.withClaims w := rfl
@[simp] theorem State.withClaims_self : s.withClaims s.claims = s := rfl
end

section
variable (s : State) (v w : Draws Level)
@[simp] theorem State.withCsLevels_px : (s.withCsLevels v).px = s.px := rfl
@[simp] theorem State.withCsLevels_seg : (s.withCsLevels v).seg = s.seg := rfl
@[simp] theorem State.withCsLevels_ctl : (s.withCsLevels v).ctl = s.ctl := rfl
@[simp] theorem State.withCsLevels_led : (s.withCsLevels v).led = s.led := rfl
@[simp] theorem State.withCsLevels_disp : (s.withCsLevels v).disp = s.disp := rfl
@[simp] theorem State.withCsLevels_lines : (s.withCsLevels v).lines = s.lines := rfl
@[simp] theorem State.withCsLevels_bus : (s.withCsLevels v).bus = s.bus := rfl
@[simp] theorem State.withCsLevels_fault : (s.withCsLevels v).fault = s.fault := rfl
@[simp] theorem State.withCsLevels_history : (s.withCsLevels v).history = s.history := rfl
@[simp] theorem State.withCsLevels_cfg : (s.withCsLevels v).cfg = s.cfg := rfl
@[simp] theorem State.withCsLevels_inbox : (s.withCsLevels v).inbox = s.inbox := rfl
@[simp] theorem State.withCsLevels_claims : (s.withCsLevels v).claims = s.claims := rfl
@[simp] theorem State.withCsLevels_csLevels : (s.withCsLevels v).csLevels = v := rfl
@[simp] theorem State.withCsLevels_busReplies : (s.withCsLevels v).busReplies = s.busReplies := rfl
@[simp] theorem State.withCsLevels_withCsLevels : (s.withCsLevels v).withCsLevels w = s.withCsLevels w := rfl
@[simp] theorem State.withCsLevels_self : s.withCsLevels s.csLevels = s := rfl
end

section
variable (s : State) (v w : Draws Reply)
@[simp] theorem State.withBusReplies_px : (s.withBusReplies v).px = s.px := rfl
@[simp] theorem State.withBusReplies_seg : (s.withBusReplies v).seg = s.seg := rfl
@[simp] theorem State.withBusReplies_ctl : (s.withBusReplies v).ctl = s.ctl := rfl
@[simp] theorem State.withBusReplies_led : (s.withBusReplies v).led = s.led := rfl
@[simp] theorem State.withBusReplies_disp : (s.withBusReplies v).disp = s.disp := rfl
@[simp] theorem State.withBusReplies_lines : (s.withBusReplies v).lines = s.lines := rfl
@[simp] theorem State.withBusReplies_bus : (s.withBusReplies v).bus = s.bus := rfl
@[simp] theorem State.withBusReplies_fault : (s.withBusReplies v).fault = s.fault := rfl
@[simp] theorem State.withBusReplies_history : (s.withBusReplies v).history = s.history := rfl
@[simp] theorem State.withBusReplies_cfg : (s.withBusReplies v).cfg = s.cfg := rfl
@[simp] theorem State.withBusReplies_inbox : (s.withBusReplies v).inbox = s.inbox := rfl
@[simp] theorem State.withBusReplies_claims : (s.withBusReplies v).claims = s.claims := rfl
@[simp] theorem State.withBusReplies_csLevels : (s.withBusReplies v).csLevels = s.csLevels := rfl
@[simp] theorem State.withBusReplies_busReplies : (s.withBusReplies v).busReplies = v := rfl
@[simp] theorem State.withBusReplies_withBusReplies : (s.withBusReplies v).withBusReplies w = s.withBusReplies w := rfl
@[simp] theorem State.withBusReplies_self : s.withBusReplies s.busReplies = s := rfl
end

end Sys2Proof.Machine
end

