-- ==== Sys2Proof/Laws/Ops.lean ====
section
/-! SUPPORT. For each shared operation, once, everything it can do; provers cite these instead of unfolding it. -/

namespace Sys2Proof.Machine

/-! ## Sequencing -/

@[simp] theorem raise_eq (info : FaultInfo) (s : State) : raise info s = s.withFault (some info) := rfl

@[simp] theorem ignore_eq (s : State) : ignore s = s := rfl

theorem andThen_of_running {f g : Op} {s : State} (h : (f s).fault = none) : andThen f g s = g (f s) := by
  simp only [andThen, h]

theorem andThen_of_faulted {f g : Op} {s : State} (h : (f s).fault ≠ none) : andThen f g s = f s := by
  cases hf : (f s).fault with
  | none => exact absurd hf h
  | some info => simp only [andThen, hf]

/-- What a sequence does: the first statement faults and that is all, or both run. -/
theorem andThen_cases (f g : Op) (s : State) :
    ((f s).fault = none ∧ andThen f g s = g (f s)) ∨ ((f s).fault ≠ none ∧ andThen f g s = f s) := by
  by_cases h : (f s).fault = none
  · exact .inl ⟨h, andThen_of_running h⟩
  · exact .inr ⟨h, andThen_of_faulted h⟩

@[simp] theorem inOrder_nil : inOrder [] = ignore := rfl

@[simp] theorem inOrder_cons (f : Op) (fs : List Op) : inOrder (f :: fs) = andThen f (inOrder fs) := rfl

theorem whileRunning_running {s : State} (h : s.fault = none) (body : Op) : whileRunning s body = .next (body s) := by
  simp only [whileRunning, h]

theorem whileRunning_faulted {s : State} {info : FaultInfo} (h : s.fault = some info) (body : Op) :
    whileRunning s body = .fault (.stuck info) := by
  simp only [whileRunning, h]

/-- An operation answers a next state exactly when no fault is recorded, and then it is the body's. -/
theorem whileRunning_eq_next {s t : State} {body : Op} :
    whileRunning s body = .next t ↔ s.fault = none ∧ body s = t := by
  cases h : s.fault with
  | none => simp [whileRunning_running h]
  | some info => simp [whileRunning_faulted h]

/-- A property that each of two statements carries over to the state after it is carried over by their sequence. -/
theorem andThen_induction {P : State → Prop} {f g : Op} {s : State} (hf : P (f s)) (hg : P (f s) → P (g (f s))) :
    P (andThen f g s) := by
  obtain ⟨-, h⟩ | ⟨-, h⟩ := andThen_cases f g s <;> rw [h]
  · exact hg hf
  · exact hf

/-! ## Draws -/

@[simp] theorem Draws.head_eq_nth {α : Type} (free : Nat → α) (d : Draws α) : d.head free = d.nth free 0 := by
  unfold Draws.head Draws.nth
  cases d.script <;> simp

@[simp] theorem Draws.tail_eq_skip {α : Type} (d : Draws α) : d.tail = d.skip 1 := by
  unfold Draws.tail Draws.skip
  cases d.script <;> simp

@[simp] theorem Draws.skip_skip {α : Type} (d : Draws α) (j k : Nat) : (d.skip j).skip k = d.skip (j + k) := by
  simp [Draws.skip, Nat.add_assoc]

@[simp] theorem Draws.nth_skip {α : Type} (free : Nat → α) (d : Draws α) (j k : Nat) :
    (d.skip j).nth free k = d.nth free (j + k) := by
  simp [Draws.skip, Draws.nth, Nat.add_assoc]

theorem State.nextClaim_eq (s : State) : s.nextClaim = s.claimAt 0 := by
  simp [State.nextClaim, State.claimAt]

theorem State.nextBusReply_eq (s : State) : s.nextBusReply = s.busReplyAt 0 := by
  simp [State.nextBusReply, State.busReplyAt]

/-! ## Events -/

@[simp] theorem emit_nil (s : State) : emit [] s = s := by
  simp [emit]

theorem emit_append (xs ys : List Event) (s : State) : emit (xs ++ ys) s = emit ys (emit xs s) := by
  simp [emit, State.withHistory, State.withLines]

@[simp] theorem emit_history (evs : List Event) (s : State) : (emit evs s).history = s.history ++ evs := rfl

@[simp] theorem emit_lines (evs : List Event) (s : State) : (emit evs s).lines = evs.foldl Lines.after s.lines := rfl

/-- Performing events changes the lines and the history, and nothing else. -/
theorem emit_frame (evs : List Event) (s : State) :
    emit evs s = { s with lines := evs.foldl Lines.after s.lines, history := s.history ++ evs } := rfl

@[simp] theorem emit_fault (evs : List Event) (s : State) : (emit evs s).fault = s.fault := rfl

@[simp] theorem emit_cfg (evs : List Event) (s : State) : (emit evs s).cfg = s.cfg := rfl

/-- Emitting bits leaves CLK low and DAT at the last bit; with no bits the lines are as they were. -/
theorem lines_after_bits (bits : List Bool) (b : Bool) (l : Lines) :
    (bitsEvents (bits ++ [b])).foldl Lines.after l =
      { l with dat := .driven (Level.ofBit b), clk := .driven .low } := by
  induction bits generalizing l with
  | nil => cases b <;> rfl
  | cons x xs ih =>
    have h : bitsEvents (x :: xs ++ [b]) = bitEvents x ++ bitsEvents (xs ++ [b]) := rfl
    rw [h, List.foldl_append, ih]
    cases x <;> rfl

theorem bitsEvents_append (xs ys : List Bool) : bitsEvents (xs ++ ys) = bitsEvents xs ++ bitsEvents ys := by
  simp [bitsEvents]

theorem bitsEvents_length (bits : List Bool) : (bitsEvents bits).length = 5 * bits.length := by
  induction bits with
  | nil => rfl
  | cons b bs ih =>
    have h : bitsEvents (b :: bs) = bitEvents b ++ bitsEvents bs := rfl
    simp only [h, List.length_append, ih, List.length_cons]
    simp [bitEvents]
    omega

/-! ## Collaborator calls -/

/-- What a claim does: its event, one answer used up, and the fault if the answer is an error (R80, R132). -/
theorem pinClaim_eq (line : Line) (s : State) :
    pinClaim line s = { s with
      history := s.history ++ [.claim line]
      claims := s.claims.skip 1
      fault := match s.claimAt 0 with
        | .ok => s.fault
        | .error e => some (.pinClaimFailed line e) } := by
  unfold pinClaim
  rw [State.nextClaim_eq]
  cases s.claimAt 0 <;> simp [emit, State.withFault, State.withClaims, State.withHistory, State.withLines, Lines.after]

/-- What opening the bus does (R103, R132). -/
theorem busOpen_eq (s : State) :
    busOpen s = { s with
      history := s.history ++ [.busOpen]
      busReplies := s.busReplies.skip 1
      fault := match s.busReplyAt 0 with
        | .ok => s.fault
        | .error e => some (.busOpenFailed e) } := by
  unfold busOpen
  rw [State.nextBusReply_eq]
  cases s.busReplyAt 0 <;> simp [emit, State.withFault, State.withBusReplies, State.withHistory, State.withLines, Lines.after]

/-- What addressing the bus does (R103). -/
theorem busSetAddress_eq (a : BitVec 7) (s : State) :
    busSetAddress a s = { s with history := s.history ++ [.addr a], bus := .opened a } := rfl

/-- What a bus write does (R103, R107, R132). -/
theorem busWrite_eq (cmd : Byte) (payload : List Byte) (s : State) :
    busWrite cmd payload s = { s with
      history := s.history ++ [.write cmd payload]
      busReplies := s.busReplies.skip 1
      fault := match s.busReplyAt 0 with
        | .ok => s.fault
        | .error e => some (.busWriteFailed cmd e) } := by
  unfold busWrite
  rw [State.nextBusReply_eq]
  cases s.busReplyAt 0 <;> simp [emit, State.withFault, State.withBusReplies, State.withHistory, State.withLines, Lines.after]

/-! ## Buffers -/

@[simp] theorem mapPixels_get (f : Pixel → Pixel) (px : Vector Pixel 7) (i : Nat) (h : i < 7) :
    (mapPixels f px)[i] = f px[i] := by
  obtain rfl | rfl | rfl | rfl | rfl | rfl | rfl : i = 0 ∨ i = 1 ∨ i = 2 ∨ i = 3 ∨ i = 4 ∨ i = 5 ∨ i = 6 := by omega
  all_goals rfl

/-- What storing a mask does to each byte (20_memory R42). -/
theorem storeMask_get (seg : Vector Byte 8) (p : Fin 4) (mask : BitVec 16) (j : Nat) (h : j < 8) :
    (storeMask seg p mask)[j] =
      if j = 2 * p.val then maskLo mask else if j = 2 * p.val + 1 then maskHi mask else seg[j] := by
  unfold storeMask
  simp only [Vector.getElem_set]
  split_ifs <;> first | rfl | omega

/-- What storing a decimal point does to each byte (43_glyph R115). -/
theorem storeDecimal_get (seg : Vector Byte 8) (p : Fin 4) (on : Bool) (j : Nat) (h : j < 8) :
    (storeDecimal seg p on)[j] =
      if j = 2 * p.val + 1 then (if on then seg[j] ||| 0x40#8 else seg[j] &&& 0xBF#8) else seg[j] := by
  unfold storeDecimal
  simp only [Vector.getElem_set]
  by_cases hj : j = 2 * p.val + 1
  · subst hj; simp
  · rw [if_neg (fun e => hj e.symm), if_neg hj]

/-- A stored mask reads back (43_glyph R114). -/
theorem readMask_storeMask (seg : Vector Byte 8) (p : Fin 4) (mask : BitVec 16) :
    readMask (storeMask seg p mask) p = mask := by
  unfold readMask
  rw [storeMask_get, storeMask_get, if_neg (by omega), if_pos rfl, if_pos rfl]
  apply BitVec.eq_of_getLsbD_eq
  intro i hi
  simp only [BitVec.getLsbD_append, maskHi, maskLo, BitVec.getLsbD_extractLsb']
  by_cases h8 : i < 8
  · simp [h8]
  · have h1 : i - 8 < 8 := by omega
    have h2 : 8 + (i - 8) = i := by omega
    simp [h8, h1, h2]

/-- Storing a mask leaves the other positions alone. -/
theorem readMask_storeMask_ne (seg : Vector Byte 8) (p q : Fin 4) (mask : BitVec 16) (h : q ≠ p) :
    readMask (storeMask seg p mask) q = readMask seg q := by
  have hv : q.val ≠ p.val := fun e => h (Fin.ext e)
  unfold readMask
  rw [storeMask_get, storeMask_get, if_neg (by omega), if_neg (by omega), if_neg (by omega), if_neg (by omega)]

theorem posIndex?_of_fin (p : Fin 4) : posIndex? (p.val : Int) = some p := by
  unfold posIndex?
  rw [dif_pos (by omega)]
  simp

theorem posIndex?_of_outside {pos : Int} (h : pos < 0 ∨ 3 < pos) : posIndex? pos = none := by
  unfold posIndex?
  rw [dif_neg (by omega)]

end Sys2Proof.Machine
end

