-- ==== Sys2Proof/Laws/Lifecycle.lean ====
section
/-! SUPPORT. What setting up does, once (spec/40_lifecycle.md R78 to R80; 42_display_controller.md R103). -/

namespace Sys2Proof.Machine

@[simp] theorem flags_led (s : State) : s.flags .led = s.led := rfl

@[simp] theorem flags_disp (s : State) : s.flags .disp = s.disp := rfl

theorem ifNotSim_of_sim {d : Driver} {s : State} (h : (s.flags d).sim = true) (body : Op) : ifNotSim d body s = s := by
  simp [ifNotSim, h]

theorem ifNotSim_of_not_sim {d : Driver} {s : State} (h : (s.flags d).sim = false) (body : Op) :
    ifNotSim d body s = body s := by
  simp [ifNotSim, h]

theorem ensureSetup_of_setup {d : Driver} {s : State} (h : (s.flags d).isSetup = true) : ensureSetup d s = s := by
  simp [ensureSetup, h]

/-- In simulation setting up records completion and does nothing else (R78). -/
theorem ensureSetup_of_sim {d : Driver} {s : State} (hf : s.fault = none) (hs : (s.flags d).isSetup = false)
    (h : (s.flags d).sim = true) : ensureSetup d s = markSetup d s := by
  have hi : ifNotSim d (acquire d) s = s := ifNotSim_of_sim h _
  simp only [ensureSetup, hs, Bool.false_eq_true, if_false]
  rw [andThen_of_running (by rw [hi]; exact hf), hi]

/-- On the first physical use setting up is `Acquire(d)`, then the flag (R78). -/
theorem ensureSetup_of_fresh {d : Driver} {s : State} (hs : (s.flags d).isSetup = false)
    (h : (s.flags d).sim = false) : ensureSetup d s = andThen (acquire d) (markSetup d) s := by
  have hi : ifNotSim d (acquire d) s = acquire d s := ifNotSim_of_not_sim h _
  simp [ensureSetup, hs, andThen, hi]

/-- `Acquire(led)`, whole: the claims up to the first that fails; if none does, the levels after them (R80). -/
theorem acquireLed_eq (s : State) (hf : s.fault = none) :
    acquireLed s =
      match s.claimAt 0, s.claimAt 1, s.claimAt 2 with
      | .error e, _, _ => { s with
          history := s.history ++ [.claim .dat], claims := s.claims.skip 1
          fault := some (.pinClaimFailed .dat e) }
      | .ok, .error e, _ => { s with
          history := s.history ++ [.claim .dat, .claim .clk], claims := s.claims.skip 2
          fault := some (.pinClaimFailed .clk e) }
      | .ok, .ok, .error e => { s with
          history := s.history ++ [.claim .dat, .claim .clk, .claim .cs], claims := s.claims.skip 3
          fault := some (.pinClaimFailed .cs e) }
      | .ok, .ok, .ok => { s with
          history := s.history ++ [.claim .dat, .claim .clk, .claim .cs], claims := s.claims.skip 3
          lines := { dat := .driven .low, clk := .driven .low, cs := .driven s.nextCsLevel }
          csLevels := s.csLevels.skip 1 } := by
  cases h0 : s.claimAt 0 <;> cases h1 : s.claimAt 1 <;> cases h2 : s.claimAt 2 <;>
    simp only [State.claimAt] at h0 h1 h2 <;>
    simp [acquireLed, andThen, pinClaim_eq, driveClaimed, State.claimAt, h0, h1, h2, hf, State.withLines,
      State.withCsLevels, State.nextCsLevel]

/-- The five events of a display setup that does not fail (42_display_controller R103). -/
def setupEvents (cfg : Config) (ctl : Ctl) : List Event :=
  [.busOpen, .addr 0x70#7, .write cfg.cmdOscOn [], .write (blinkCmd cfg ctl.blink) [], .write (dimCmd cfg ctl.br) []]

/-- `Acquire(disp)`, whole: the calls up to the first that fails (42_display_controller R103). -/
theorem acquireDisp_eq (s : State) (hf : s.fault = none) :
    acquireDisp s =
      match s.busReplyAt 0, s.busReplyAt 1, s.busReplyAt 2, s.busReplyAt 3 with
      | .error e, _, _, _ => { s with
          history := s.history ++ [.busOpen], busReplies := s.busReplies.skip 1, fault := some (.busOpenFailed e) }
      | .ok, .error e, _, _ => { s with
          bus := .opened 0x70#7, history := s.history ++ (setupEvents s.cfg s.ctl).take 3
          busReplies := s.busReplies.skip 2, fault := some (.busWriteFailed s.cfg.cmdOscOn e) }
      | .ok, .ok, .error e, _ => { s with
          bus := .opened 0x70#7, history := s.history ++ (setupEvents s.cfg s.ctl).take 4
          busReplies := s.busReplies.skip 3, fault := some (.busWriteFailed (blinkCmd s.cfg s.ctl.blink) e) }
      | .ok, .ok, .ok, .error e => { s with
          bus := .opened 0x70#7, history := s.history ++ setupEvents s.cfg s.ctl
          busReplies := s.busReplies.skip 4, fault := some (.busWriteFailed (dimCmd s.cfg s.ctl.br) e) }
      | .ok, .ok, .ok, .ok => { s with
          bus := .opened 0x70#7, history := s.history ++ setupEvents s.cfg s.ctl
          busReplies := s.busReplies.skip 4 } := by
  cases h0 : s.busReplyAt 0 <;> cases h1 : s.busReplyAt 1 <;> cases h2 : s.busReplyAt 2 <;> cases h3 : s.busReplyAt 3 <;>
    simp only [State.busReplyAt] at h0 h1 h2 h3 <;>
    simp [acquireDisp, andThen, busOpen_eq, busSetAddress_eq, sendCmd, busWrite_eq, State.busReplyAt, h0, h1, h2, h3, hf,
      setupEvents]

/-- What a state can be after bus calls on `s`: display events appended, answers used up, the bus perhaps open at 0x70, a fault
perhaps recorded, and nothing else changed. -/
def AfterBusCalls (s t : State) : Prop :=
  t = { s with history := t.history, bus := t.bus, busReplies := t.busReplies, fault := t.fault } ∧
  (∃ evs, t.history = s.history ++ evs ∧ ∀ e ∈ evs, e = .busOpen ∨ e = .addr 0x70#7 ∨ ∃ cmd payload, e = .write cmd payload) ∧
  (t.bus = s.bus ∨ t.bus = .opened 0x70#7)

theorem afterBusCalls_write {s t : State} (h : AfterBusCalls s t) (cmd : Byte) (payload : List Byte) :
    AfterBusCalls s (busWrite cmd payload t) := by
  obtain ⟨ht, ⟨evs, he, hk⟩, hb⟩ := h
  rw [busWrite_eq]
  refine ⟨?_, ⟨evs ++ [.write cmd payload], ?_, ?_⟩, hb⟩
  · rw [ht]
  · simp [he]
  · intro e hm
    rcases List.mem_append.1 hm with hm | hm
    · exact hk e hm
    · exact .inr (.inr ⟨cmd, payload, by simpa using hm⟩)

/-- What `Acquire(disp)` can do at all (42_display_controller R103). -/
theorem acquireDisp_frame (s : State) : AfterBusCalls s (acquireDisp s) := by
  unfold acquireDisp
  simp only [inOrder_cons, inOrder_nil]
  refine andThen_induction (P := AfterBusCalls s) ?_ fun h => andThen_induction ?_ fun h =>
    andThen_induction (afterBusCalls_write h _ _) fun h => andThen_induction (afterBusCalls_write h _ _) fun h =>
    andThen_induction (afterBusCalls_write h _ _) fun h => h
  · rw [busOpen_eq]
    exact ⟨rfl, ⟨[.busOpen], rfl, by simp⟩, .inl rfl⟩
  · obtain ⟨ht, ⟨evs, he, hk⟩, -⟩ := h
    rw [busSetAddress_eq]
    refine ⟨by rw [ht], ⟨evs ++ [.addr 0x70#7], by simp [he], ?_⟩, .inr rfl⟩
    intro e hm
    rcases List.mem_append.1 hm with hm | hm
    · exact hk e hm
    · exact .inr (.inl (by simpa using hm))

/-- Setting up the LED driver, by its cases (R78). -/
theorem ensureSetup_led_eq (s : State) (hf : s.fault = none) :
    ensureSetup .led s =
      if s.led.isSetup then s
      else if s.led.sim then markSetup .led s else andThen acquireLed (markSetup .led) s := by
  cases h : s.led.isSetup
  · cases h2 : s.led.sim
    · exact ensureSetup_of_fresh h h2
    · exact ensureSetup_of_sim hf h h2
  · exact ensureSetup_of_setup h

/-- Setting up the display driver, by its cases (R78). -/
theorem ensureSetup_disp_eq (s : State) (hf : s.fault = none) :
    ensureSetup .disp s =
      if s.disp.isSetup then s
      else if s.disp.sim then markSetup .disp s else andThen acquireDisp (markSetup .disp) s := by
  cases h : s.disp.isSetup
  · cases h2 : s.disp.sim
    · exact ensureSetup_of_fresh h h2
    · exact ensureSetup_of_sim hf h h2
  · exact ensureSetup_of_setup h

end Sys2Proof.Machine
end

