-- ==== Sys2Proof/Laws/Observe.lean ====
section
/-! SUPPORT. What an observer of the LED wires and of the bus sees of the shared emissions. -/

namespace Sys2Proof.Machine

/-! ## The LED wires -/

/-- A frame is CS asserted, the events of its 292 bits, CS deasserted (spec/41_led_chain.md R95, R96). -/
theorem frameEvents_eq (active : Level) (px : Vector Pixel 7) :
    frameEvents active px = [.pin .cs active] ++ bitsEvents (frameBits px) ++ [.pin .cs active.not] := by
  have hpx : pixelsEvents px =
      bitsEvents (px.toList.flatMap fun p => bitsMsb (ctrlByte p.br) ++ bitsMsb p.b ++ bitsMsb p.g ++ bitsMsb p.r) := by
    unfold pixelsEvents
    induction px.toList with
    | nil => rfl
    | cons p ps ih =>
      simp only [List.flatMap_cons, bitsEvents_append, ← ih]
      rfl
  unfold frameEvents frameBits
  simp only [hpx, sofEvents, eofEvents, zerosEvents, bitsEvents_append, List.append_assoc]

/-- Inside a segment, emitted bits are sampled one by one. -/
theorem see_bits (active : Level) (bits : List Bool) (o : Sampler) (seen : List Bool) (h : o.segment = some seen) :
    (bitsEvents bits).foldl (Sampler.see active) o =
      { dat := (bits.getLast?.map Level.ofBit).getD o.dat, segment := some (bits.reverse ++ seen), streams := o.streams } := by
  induction bits generalizing o seen with
  | nil =>
    obtain ⟨d, g, st⟩ := o
    simp only at h
    subst h
    rfl
  | cons b bs ih =>
    have hb : (bitEvents b).foldl (Sampler.see active) o =
        { dat := Level.ofBit b, segment := some (b :: seen), streams := o.streams } := by
      obtain ⟨d, g, st⟩ := o
      simp only at h
      subst h
      cases b <;> rfl
    have hcons : bitsEvents (b :: bs) = bitEvents b ++ bitsEvents bs := rfl
    rw [hcons, List.foldl_append, hb, ih _ _ rfl]
    cases bs <;> simp [List.getLast?_cons]

/-- Outside a segment, emitted bits change only the level in force on DAT. -/
theorem see_bits_outside (active : Level) (bits : List Bool) (o : Sampler) (h : o.segment = none) :
    ((bitsEvents bits).foldl (Sampler.see active) o).segment = none ∧
    ((bitsEvents bits).foldl (Sampler.see active) o).streams = o.streams := by
  induction bits generalizing o with
  | nil => exact ⟨h, rfl⟩
  | cons b bs ih =>
    have hcons : bitsEvents (b :: bs) = bitEvents b ++ bitsEvents bs := rfl
    have hb : ((bitEvents b).foldl (Sampler.see active) o).segment = none ∧
        ((bitEvents b).foldl (Sampler.see active) o).streams = o.streams := by
      obtain ⟨d, g, st⟩ := o
      simp only at h
      subst h
      cases b <;> exact ⟨rfl, rfl⟩
    rw [hcons, List.foldl_append]
    obtain ⟨h1, h2⟩ := ih _ hb.1
    exact ⟨h1, h2.trans hb.2⟩

theorem Level.not_ne (l : Level) : l.not ≠ l := by cases l <;> simp [Level.not]

/-- CS asserted, bits, CS deasserted: one more stream, those bits, and no segment left open (R97). -/
theorem see_segment (active : Level) (bits : List Bool) (o : Sampler) (h : o.segment = none) :
    (([Event.pin .cs active] ++ bitsEvents bits ++ [Event.pin .cs active.not]).foldl (Sampler.see active) o).segment = none ∧
    (([Event.pin .cs active] ++ bitsEvents bits ++ [Event.pin .cs active.not]).foldl (Sampler.see active) o).streams =
      o.streams ++ [bits] := by
  obtain ⟨d, g, st⟩ := o
  simp only at h
  subst h
  rw [List.foldl_append, List.foldl_append]
  have h1 : ([Event.pin .cs active].foldl (Sampler.see active) ⟨d, none, st⟩) = ⟨d, some [], st⟩ := by
    simp [Sampler.see]
  rw [h1, see_bits active bits _ [] rfl]
  simp [Sampler.see, Level.not_ne]

/-- The display's events are not seen on the LED wires. -/
theorem see_disp (active : Level) (evs : List Event) (o : Sampler) (h : ∀ e ∈ evs, e.driver = .disp) :
    evs.foldl (Sampler.see active) o = o := by
  induction evs with
  | nil => rfl
  | cons e es ih =>
    have he := h e (by simp)
    have hsee : Sampler.see active o e = o := by
      cases e <;> first | rfl | simp [Event.driver] at he
    rw [List.foldl_cons, hsee]
    exact ih fun e' h' => h e' (by simp [h'])

/-! ## Events by driver -/

@[simp] theorem eventsOf_append (d : Driver) (xs ys : List Event) :
    eventsOf d (xs ++ ys) = eventsOf d xs ++ eventsOf d ys := by
  simp [eventsOf]

theorem bitsEvents_driver (bits : List Bool) : ∀ e ∈ bitsEvents bits, e.driver = .led := by
  intro e he
  simp only [bitsEvents, List.mem_flatMap] at he
  obtain ⟨b, -, hb⟩ := he
  simp only [bitEvents, List.mem_cons, List.not_mem_nil, or_false] at hb
  rcases hb with rfl | rfl | rfl | rfl | rfl <;> rfl

theorem eventsOf_none {d : Driver} {evs : List Event} (h : ∀ e ∈ evs, e.driver ≠ d) : eventsOf d evs = [] := by
  simp only [eventsOf, List.filter_eq_nil_iff, beq_iff_eq]
  exact h

/-! ## Bus writes -/

@[simp] theorem busWrites_append (xs ys : List Event) : busWrites (xs ++ ys) = busWrites xs ++ busWrites ys := by
  induction xs with
  | nil => rfl
  | cons x xs ih => cases x <;> simp [busWrites, ih]

theorem busWrites_of_led (evs : List Event) (h : ∀ e ∈ evs, e.driver = .led) : busWrites evs = [] := by
  induction evs with
  | nil => rfl
  | cons e es ih =>
    have he := h e (by simp)
    have := ih fun e' h' => h e' (by simp [h'])
    cases e <;> first | exact this | simp [Event.driver] at he

/-- The last picked command after one more write. -/
theorem lastCmd_write (pick : Byte → Bool) (evs : List Event) (cmd : Byte) (payload : List Byte) :
    lastCmd pick (evs ++ [.write cmd payload]) = if pick cmd then some cmd else lastCmd pick evs := by
  simp only [lastCmd, busWrites_append, busWrites, List.map_append, List.map_cons, List.map_nil, List.reverse_append,
    List.reverse_cons, List.reverse_nil, List.nil_append, List.singleton_append, List.find?_cons]
  cases pick cmd <;> simp

end Sys2Proof.Machine
end

