-- ==== Sys2Proof/Laws/Exec.lean ====
section
/-! SUPPORT. What an instruction can do, said once: its body as an operation, the inversion of exec and of step, and the rule by
which a property is carried through an instruction. -/

namespace Sys2Proof.Machine

/-- The body of each instruction: what it does in a state without a fault. -/
def body : Instr → Op
  | .ledSetup => ensureSetup .led
  | .ledSetSimulation v => changeSim .led v
  | .ledSetPixel index r g b q => withLevel q fun level => writePixel index { r := r, g := g, b := b, br := level }
  | .ledSetAll r g b q => withLevel q fun level t => t.withPx (mapPixels (fun _ => { r := r, g := g, b := b, br := level }) t.px)
  | .ledSetBrightness q => withLevel q fun level t => t.withPx (mapPixels (fun p => { p with br := level }) t.px)
  | .ledClear => clearColours
  | .ledShow => showFrame
  | .ledExit => andThen clearColours showFrame
  | .dispSetup => ensureSetup .disp
  | .dispSetSimulation v => changeSim .disp v
  | .dispSetBlink code => setBlink code
  | .dispSetBrightness level => setDim level
  | .dispWriteDisplay => flushBuffer
  | .dispSetDigitRaw pos mask => setDigitRaw pos mask
  | .dispSetDecimal pos on => setDecimal pos on
  | .dispSetDigit pos ch dp => setDigit pos ch dp
  | .dispPrintStr text jr => printFrom (printStart text jr) text
  | .ledSof => onWire .led (emit sofEvents)
  | .ledPixelWord br b g r => onWire .led (emit (pixelWordEvents br b g r))
  | .ledEof => onWire .led (emit eofEvents)
  | .i2cData _ => onWire .disp fun t => busWrite cmdData t.seg.toList t
  | .i2cOscOn => onWire .disp fun t => sendCmd t.cfg.cmdOscOn t
  | .i2cBlink f => onWire .disp fun t => sendCmd (blinkCmd t.cfg f) t
  | .i2cDim level => onWire .disp fun t => sendCmd (dimCmd t.cfg level) t

/-- Whether the parameter `PRINT_RIGHT_LONG` refuses the instruction (spec/43_glyph.md R118). -/
def refusesInstr (cfg : Config) : Instr → Bool
  | .dispPrintStr text jr => refusesText cfg text jr
  | _ => false

/-- An instruction is its body, run while no fault is recorded, unless the parameter refuses it. -/
theorem exec_eq (i : Instr) (s : State) :
    exec i s = if s.fault.isNone && refusesInstr s.cfg i then .refused .printRightLong else whileRunning s (body i) := by
  cases i <;> first | rfl | simp only [refusesInstr, Bool.and_false, Bool.false_eq_true, if_false] <;> rfl

theorem exec_of_faulted {s : State} {info : FaultInfo} (h : s.fault = some info) (i : Instr) :
    exec i s = .fault (.stuck info) := by
  rw [exec_eq, h]
  simp [whileRunning_faulted h]

theorem exec_of_running {s : State} (h : s.fault = none) {i : Instr} (hr : refusesInstr s.cfg i = false) :
    exec i s = .next (body i s) := by
  rw [exec_eq, hr]
  simp [whileRunning_running h]

/-- If an instruction answers a next state, no fault was recorded and the state is its body's. -/
theorem exec_eq_next {i : Instr} {s t : State} :
    exec i s = .next t ↔ s.fault = none ∧ refusesInstr s.cfg i = false ∧ body i s = t := by
  rw [exec_eq]
  cases hf : s.fault with
  | some info => simp [whileRunning_faulted hf]
  | none => cases hr : refusesInstr s.cfg i <;> simp [whileRunning_running hf]

/-- An expansion's first instruction runs; if it faults that is all, else the rest runs (30_encoding R58, 60_exceptions R129). -/
theorem execExpansion_cons {s : State} (h : s.fault = none) {i : Instr} (hr : refusesInstr s.cfg i = false) (rest : List Instr) :
    execExpansion (i :: rest) s =
      if (body i s).fault = none then execExpansion rest (body i s) else .next (body i s) := by
  simp only [execExpansion, exec_of_running h hr]
  cases (body i s).fault <;> simp

/-- If a step answers a next state, it waited, or it ran the instruction its oldest request decodes to. -/
theorem step_eq_next {s t : State} (h : step s = .next t) :
    s.fault = none ∧ ((s.inbox = [] ∧ t = s) ∨
      ∃ r rest i, s.inbox = r :: rest ∧ decode s.cfg r = .ok i ∧ exec i (s.withInbox rest) = .next t) := by
  unfold step at h
  cases hf : s.fault with
  | some info => simp [hf] at h
  | none =>
    refine ⟨rfl, ?_⟩
    simp only [hf, nextRequest] at h
    cases hi : s.inbox with
    | nil =>
      rw [hi] at h
      exact .inl ⟨rfl, by simpa using h.symm⟩
    | cons r rest =>
      rw [hi] at h
      simp only at h
      cases hd : decode s.cfg r with
      | error e => simp [hd] at h
      | ok i => exact .inr ⟨r, rest, i, rfl, hd, by simpa [hd] using h⟩

/-! ## Carrying a property through -/

/-- An operation carries a property over from a state without a fault. -/
def Keeps (P : State → Prop) (f : Op) : Prop := ∀ s, s.fault = none → P s → P (f s)

theorem keeps_andThen {P : State → Prop} {f g : Op} (hf : Keeps P f) (hg : Keeps P g) : Keeps P (andThen f g) := by
  intro s hs hp
  obtain ⟨hr, h⟩ | ⟨-, h⟩ := andThen_cases f g s <;> rw [h]
  · exact hg _ hr (hf s hs hp)
  · exact hf s hs hp

theorem keeps_ignore (P : State → Prop) : Keeps P ignore := fun _ _ hp => hp

/-- After setting up without a fault the driver is set up (40_lifecycle R78). -/
theorem ensureSetup_isSetup {d : Driver} {s : State} (h : (ensureSetup d s).fault = none) :
    ((ensureSetup d s).flags d).isSetup = true := by
  cases hs : (s.flags d).isSetup with
  | true => rw [ensureSetup_of_setup hs, hs]
  | false =>
    have he : ensureSetup d s = andThen (ifNotSim d (acquire d)) (markSetup d) s := by
      simp [ensureSetup, hs]
    rw [he] at h ⊢
    obtain ⟨-, h2⟩ | ⟨h1, h2⟩ := andThen_cases (ifNotSim d (acquire d)) (markSetup d) s
    · rw [h2]
      cases d <;> rfl
    · rw [h2] at h
      exact absurd h h1

/-- A property that setting up carries over, and that the body carries over on a driver that is physically set up, is carried over by
the two together: the shape of every operation that needs a physical resource (40_lifecycle R78, R79, R86). -/
theorem keeps_onWire {P : State → Prop} {d : Driver} {f : Op} (hsetup : Keeps P (ensureSetup d))
    (hf : ∀ s, s.fault = none → (s.flags d).isSetup = true → (s.flags d).sim = false → P s → P (f s)) :
    Keeps P (andThen (ensureSetup d) (ifNotSim d f)) := by
  intro s hs hp
  have hp' := hsetup s hs hp
  obtain ⟨hr, h⟩ | ⟨-, h⟩ := andThen_cases (ensureSetup d) (ifNotSim d f) s <;> rw [h]
  · cases hsim : ((ensureSetup d s).flags d).sim with
    | true => rwa [ifNotSim_of_sim hsim]
    | false =>
      rw [ifNotSim_of_not_sim hsim]
      exact hf _ hr (ensureSetup_isSetup hr) hsim hp'
  · exact hp'

/-- Setting up and then a body unless simulated, by its cases: the body runs on the state after setup exactly when that has no fault and
the driver is not simulated. -/
theorem andThen_setup_ifNotSim (d : Driver) (f : Op) (s : State) :
    andThen (ensureSetup d) (ifNotSim d f) s =
      if (ensureSetup d s).fault = none ∧ ((ensureSetup d s).flags d).sim = false then f (ensureSetup d s)
      else ensureSetup d s := by
  obtain ⟨h, e⟩ | ⟨h, e⟩ := andThen_cases (ensureSetup d) (ifNotSim d f) s <;> rw [e]
  · cases hs : ((ensureSetup d s).flags d).sim <;> simp [ifNotSim, hs, h]
  · simp [h]

theorem keeps_printFrom {P : State → Prop} (h : ∀ pos ch, Keeps P (setDigit pos ch false)) (start : Int) (text : List Char) :
    Keeps P (printFrom start text) := by
  induction text generalizing start with
  | nil => exact keeps_ignore P
  | cons ch rest ih => exact keeps_andThen (h start ch) (ih (start + 1))

/-- A property that the body of every instruction carries over, and that does not read the inbox, is carried over by every step. -/
theorem step_keeps {P : State → Prop} (hinbox : ∀ s rest, P s → P (s.withInbox rest)) (h : ∀ i, Keeps P (body i))
    {s t : State} (hs : P s) (hst : step s = .next t) : P t := by
  obtain ⟨-, ⟨-, rfl⟩ | ⟨r, rest, i, -, -, he⟩⟩ := step_eq_next hst
  · exact hs
  · obtain ⟨hf, -, rfl⟩ := exec_eq_next.1 he
    exact h i _ hf (hinbox s rest hs)

/-! ## What the parts of the instructions can do, said once -/

/-- A bus write that the block makes (30_encoding R66 to R69): the buffer flush with 8 bytes, or a command with no payload. -/
def IsBlockWrite (cfg : Config) (cmd : Byte) (payload : List Byte) : Prop :=
  (cmd = cmdData ∧ payload.length = 8) ∨
  (payload = [] ∧ (cmd = cfg.cmdOscOn ∨ (∃ f, cmd = blinkCmd cfg f) ∨ ∃ level, cmd = dimCmd cfg level))

/-- A property of states that every part of an instruction carries over: taking a fault, a buffer write, a change of a simulation
flag before setup, setting up, and, on a driver that is physically set up, one frame, some bits, or one bus write. Setting the blink
rate and the dimming level are parts of their own here (`keeps_setBlink` and `keeps_setDim` take them apart). -/
structure KeptByParts (P : State → Prop) : Prop where
  raise : ∀ info, Keeps P (raise info)
  px : ∀ v s, s.fault = none → P s → P (s.withPx v)
  seg : ∀ v s, s.fault = none → P s → P (s.withSeg v)
  sim : ∀ d v s, s.fault = none → (s.flags d).isSetup = false → P s → P (writeSim d v s)
  setup : ∀ d, Keeps P (ensureSetup d)
  frame : ∀ s, s.LedReady → P s → P (emit (frameEvents s.cfg.csActive s.px) s)
  write : ∀ cmd payload s, s.DispReady → IsBlockWrite s.cfg cmd payload → P s → P (busWrite cmd payload s)
  blink : ∀ code, Keeps P (setBlink code)
  dim : ∀ level, Keeps P (setDim level)

/-- The events of a pixel word are those of its 32 bits (30_encoding R61). -/
theorem pixelWordEvents_eq (br : BitVec 5) (b g r : Byte) :
    pixelWordEvents br b g r = bitsEvents (bitsMsb (pixelWord br b g r)) := by
  have hc : ctrlByte br = 0b111#3 ++ br := by
    revert br
    decide
  simp only [pixelWordEvents, byteEvents, pixelWord, hc, bitsMsb_append, bitsEvents_append]

/-- Storing a setting and setting up, in either order (42_display_controller R104): what both parts carry over is carried over, and
without a fault the driver is set up after it. -/
theorem keeps_storeAndSetup {P : State → Prop} {store : Op} (hstore : Keeps P store) (hsetup : Keeps P (ensureSetup .disp)) :
    Keeps P (storeAndSetup store) := by
  intro s hf hp
  unfold storeAndSetup
  split
  · exact keeps_andThen hstore hsetup s hf hp
  · exact keeps_andThen hsetup hstore s hf hp

theorem storeAndSetup_isSetup {store : Op} (hstore : ∀ s, (store s).disp = s.disp ∧ (store s).fault = s.fault) {s : State}
    (h : (storeAndSetup store s).fault = none) : (storeAndSetup store s).disp.isSetup = true := by
  unfold storeAndSetup at h ⊢
  split at h <;> rename_i ho <;> simp only [ho] at *
  · obtain ⟨-, e⟩ | ⟨h1, e⟩ := andThen_cases store (ensureSetup .disp) s <;> rw [e] at h ⊢
    · exact ensureSetup_isSetup h
    · exact absurd h h1
  · obtain ⟨-, e⟩ | ⟨h1, e⟩ := andThen_cases (ensureSetup .disp) store s <;> rw [e] at h ⊢
    · rw [(hstore _).1]
      rw [(hstore _).2] at h
      exact ensureSetup_isSetup h
    · exact absurd h h1

/-- A setting's operation carries over what its parts do: the store, setting up, and the send on a driver that is set up. -/
theorem keeps_setting {P : State → Prop} {store send : Op} (hstore : Keeps P store) (hsetup : Keeps P (ensureSetup .disp))
    (hframe : ∀ s, (store s).disp = s.disp ∧ (store s).fault = s.fault) (hsend : ∀ s, s.DispReady → P s → P (send s)) :
    Keeps P (andThen (storeAndSetup store) (ifNotSim .disp send)) := by
  intro s hf hp
  have hp' := keeps_storeAndSetup hstore hsetup s hf hp
  obtain ⟨hr, h⟩ | ⟨-, h⟩ := andThen_cases (storeAndSetup store) (ifNotSim .disp send) s <;> rw [h]
  · cases hsim : (storeAndSetup store s).disp.sim with
    | true => rwa [ifNotSim_of_sim (d := .disp) hsim]
    | false =>
      rw [ifNotSim_of_not_sim (d := .disp) hsim]
      exact hsend _ ⟨hr, storeAndSetup_isSetup hframe hr, hsim⟩ hp'
  · exact hp'

/-- Setting the blink rate carries over what its parts do (42_display_controller R105). -/
theorem keeps_setBlink {P : State → Prop} (hraise : ∀ info, Keeps P (raise info)) (hstore : ∀ f, Keeps P (storeBlink f))
    (hsetup : Keeps P (ensureSetup .disp))
    (hsend : ∀ f s, s.DispReady → P s → P (sendCmd (blinkCmd s.cfg f) s)) (code : Byte) : Keeps P (setBlink code) := by
  intro s hf hp
  unfold setBlink
  cases blinkDecode s.cfg code with
  | none => exact hraise _ s hf hp
  | some f => exact keeps_setting (hstore f) hsetup (fun _ => ⟨rfl, rfl⟩) (hsend f) s hf hp

/-- Setting the dimming level carries over what its parts do (42_display_controller R106). -/
theorem keeps_setDim {P : State → Prop} (hraise : ∀ info, Keeps P (raise info)) (hstore : ∀ l, Keeps P (storeDim l))
    (hsetup : Keeps P (ensureSetup .disp))
    (hsend : ∀ l s, s.DispReady → P s → P (sendCmd (dimCmd s.cfg l) s)) (level : Byte) : Keeps P (setDim level) := by
  intro s hf hp
  unfold setDim
  split
  · exact hraise _ s hf hp
  · exact keeps_setting (hstore _) hsetup (fun _ => ⟨rfl, rfl⟩) (hsend _) s hf hp

namespace KeptByParts

variable {P : State → Prop} (h : KeptByParts P)
include h

theorem changeSim (d : Driver) (v : Bool) : Keeps P (changeSim d v) := by
  intro s hf hp
  unfold Machine.changeSim
  split
  · exact h.raise _ s hf hp
  · rename_i hc
    simp only [Bool.and_eq_true, bne_iff_ne, ne_eq, not_and, not_not] at hc
    cases hs : (s.flags d).isSetup with
    | false => exact h.sim d v s hf hs hp
    | true =>
      have hw : writeSim d v s = s := by
        rw [hc hs]
        cases d <;> rfl
      rwa [hw]

theorem withLevel (q : Brightness) {op : BitVec 5 → Op} (hop : ∀ level, Keeps P (op level)) : Keeps P (withLevel q op) := by
  intro s hf hp
  unfold Machine.withLevel
  split
  · exact hop _ s hf hp
  · exact h.raise _ s hf hp

theorem showFrame : Keeps P showFrame :=
  keeps_onWire (h.setup .led) fun s hf hs hn hp => h.frame s ⟨hf, hs, hn⟩ hp

theorem setDigitRaw (pos : Int) (mask : BitVec 16) : Keeps P (setDigitRaw pos mask) := by
  intro s hf hp
  unfold Machine.setDigitRaw
  split
  · exact hp
  · exact h.seg _ s hf hp

theorem setDecimal (pos : Int) (on : Bool) : Keeps P (setDecimal pos on) := by
  intro s hf hp
  unfold Machine.setDecimal
  split
  · exact hp
  · exact h.seg _ s hf hp

theorem setDigit (pos : Int) (ch : Char) (dp : Bool) : Keeps P (setDigit pos ch dp) := by
  intro s hf hp
  unfold Machine.setDigit
  split
  · exact h.raise _ s hf hp
  · refine keeps_andThen (h.setDigitRaw _ _) ?_ s hf hp
    split
    · exact h.setDecimal _ _
    · exact keeps_ignore P

/-- A bus write on a driver that is set up first and is not simulated. -/
theorem onWireWrite {cmd : Config → Byte} {payload : State → List Byte}
    (hw : ∀ s : State, IsBlockWrite s.cfg (cmd s.cfg) (payload s)) :
    Keeps P (andThen (ensureSetup .disp) (ifNotSim .disp fun s => busWrite (cmd s.cfg) (payload s) s)) :=
  keeps_onWire (h.setup .disp) fun s hf hs hn hp => h.write _ _ s ⟨hf, hs, hn⟩ (hw s) hp

/-- So every host operation carries the property over (40_lifecycle, 41_led_chain, 42_display_controller, 43_glyph). -/
theorem hostBody {i : Instr} (hi : i.isHost = true) : Keeps P (body i) := by
  cases i with
  | ledSetup => exact h.setup .led
  | dispSetup => exact h.setup .disp
  | ledSetSimulation v => exact h.changeSim .led v
  | dispSetSimulation v => exact h.changeSim .disp v
  | ledSetPixel index r g b q =>
    refine h.withLevel q (op := fun level => writePixel index { r := r, g := g, b := b, br := level }) fun level s hf hp => ?_
    unfold writePixel
    split
    · exact h.px _ s hf hp
    · exact hp
  | ledSetAll r g b q =>
    exact h.withLevel q (op := fun level t => t.withPx (mapPixels (fun _ => { r := r, g := g, b := b, br := level }) t.px))
      fun level s hf hp => h.px _ s hf hp
  | ledSetBrightness q =>
    exact h.withLevel q (op := fun level t => t.withPx (mapPixels (fun p => { p with br := level }) t.px))
      fun level s hf hp => h.px _ s hf hp
  | ledClear => exact fun s hf hp => h.px _ s hf hp
  | ledShow => exact h.showFrame
  | ledExit => exact keeps_andThen (fun s hf hp => h.px _ s hf hp) h.showFrame
  | dispSetBlink code => exact h.blink code
  | dispSetBrightness level => exact h.dim level
  | dispWriteDisplay => exact h.onWireWrite (cmd := fun _ => cmdData) (payload := fun s => s.seg.toList) fun s => .inl ⟨rfl, by simp⟩
  | dispSetDigitRaw pos mask => exact h.setDigitRaw pos mask
  | dispSetDecimal pos on => exact h.setDecimal pos on
  | dispSetDigit pos ch dp => exact h.setDigit pos ch dp
  | dispPrintStr text jr => exact keeps_printFrom (fun pos ch => h.setDigit pos ch false) _ text
  | ledSof | ledPixelWord _ _ _ _ | ledEof | i2cData _ | i2cOscOn | i2cBlink _ | i2cDim _ => cases hi

/-- And every instruction does, if emitting some bits on a driver that is physically set up does too. -/
theorem allBodies (hbits : ∀ bits s, s.LedReady → P s → P (emit (bitsEvents bits) s)) (i : Instr) : Keeps P (body i) := by
  by_cases hi : i.isHost = true
  · exact h.hostBody hi
  · have hled : ∀ bits, Keeps P (onWire .led (emit (bitsEvents bits))) := fun bits =>
      keeps_onWire (h.setup .led) fun s hf hs hn hp => hbits bits s ⟨hf, hs, hn⟩ hp
    cases i with
    | ledSof => exact hled (List.replicate 32 false)
    | ledPixelWord br b g r =>
      have hb : body (.ledPixelWord br b g r) = onWire .led (emit (pixelWordEvents br b g r)) := rfl
      rw [hb, pixelWordEvents_eq]
      exact hled _
    | ledEof => exact hled (List.replicate 36 false)
    | i2cData _ => exact h.onWireWrite (cmd := fun _ => cmdData) (payload := fun s => s.seg.toList) fun s => .inl ⟨rfl, by simp⟩
    | i2cOscOn => exact h.onWireWrite (cmd := Config.cmdOscOn) (payload := fun _ => []) fun s => .inr ⟨rfl, .inl rfl⟩
    | i2cBlink f =>
      exact h.onWireWrite (cmd := fun c => blinkCmd c f) (payload := fun _ => []) fun s => .inr ⟨rfl, .inr (.inl ⟨f, rfl⟩)⟩
    | i2cDim level =>
      exact h.onWireWrite (cmd := fun c => dimCmd c level) (payload := fun _ => []) fun s =>
        .inr ⟨rfl, .inr (.inr ⟨level, rfl⟩)⟩
    | ledSetup | ledSetSimulation _ | ledSetPixel _ _ _ _ _ | ledSetAll _ _ _ _ | ledSetBrightness _ | ledClear | ledShow
    | ledExit | dispSetup | dispSetSimulation _ | dispSetBlink _ | dispSetBrightness _ | dispWriteDisplay
    | dispSetDigitRaw _ _ | dispSetDecimal _ _ | dispSetDigit _ _ _ | dispPrintStr _ _ => exact absurd rfl hi

end KeptByParts

end Sys2Proof.Machine
end

