-- ==== Sys2Proof/Laws/Operands.lean ====
section
/-! SUPPORT. The small lemmas of the operand forms. -/

namespace Sys2Proof.Machine

/-- A brightness that is a rational has a denominator above 0. -/
theorem brightValue_den_pos {q : Brightness} {num : Int} {den : Nat} (h : brightValue q = some (num, den)) : 0 < den := by
  cases q with
  | ratio n d =>
    cases d with
    | zero => exact absurd h (by simp [brightValue])
    | succ d =>
      simp only [brightValue, Option.some.injEq, Prod.mk.injEq] at h
      omega
  | f64 bits =>
    have key : ∀ (c : Prop) [Decidable c] (k : Nat), 0 < (if c then 1 else 2 ^ k : Nat) := by
      intro c _ k
      split
      · exact Nat.one_pos
      · exact Nat.two_pow_pos k
    unfold brightValue binary64Value at h
    dsimp only at h
    split at h
    · cases h
    · have h2 := congrArg Prod.snd (Option.some.inj h)
      dsimp only at h2
      rw [← h2]
      exact key _ _

theorem legalBright_eq {q : Brightness} {num : Int} {den : Nat} (h : brightValue q = some (num, den)) :
    legalBright q = true ↔ 0 ≤ num ∧ num ≤ den := by
  simp only [legalBright, h, Bool.and_eq_true, decide_eq_true_eq]

theorem quant_exact_eq {q : Brightness} {num : Int} {den : Nat} (h : brightValue q = some (num, den)) :
    quant .exact q = BitVec.ofNat 5 (quantExact num.toNat den) := by
  simp only [quant, h]

/-- Rounding a number below a whole number does not go past it. -/
theorem roundHalfEven_le {n d k : Nat} (hd : 0 < d) (h : n ≤ k * d) : roundHalfEven n d ≤ k := by
  have hdiv : n / d ≤ k := Nat.div_le_of_le_mul (by rwa [Nat.mul_comm] at h)
  have hmod := Nat.div_add_mod n d
  have hlt := Nat.mod_lt n hd
  unfold roundHalfEven
  dsimp only
  rcases Nat.lt_or_ge (n / d) k with hk | hk
  · split_ifs <;> omega
  · have heq : n / d = k := by omega
    have hr : n % d = 0 := by
      rw [heq, Nat.mul_comm] at hmod
      omega
    simp [hr, hd, heq]

/-- A character of code 32..126 has a glyph, any other has none (43_glyph R113). -/
theorem lookup_eq_none {cfg : Config} {ch : Char} : lookup cfg ch = none ↔ ch.toNat < 32 ∨ 126 < ch.toNat := by
  unfold lookup
  split <;> simp <;> omega

end Sys2Proof.Machine
end

