-- ==== Sys2Proof/Laws/PerInstr.lean ====
section
/-! SUPPORT. Statements made for every instruction, one lemma per constructor of Instr. -/

namespace Sys2Proof.Laws.TableRow

/-- The bits of a request that spec/opcode_table.json numbers: the selector, the unit of the LED frame, or the command byte. -/
def tableBits : Request → Nat
  | .host selector _ => selector.toNat
  | .led bits => natOfBits bits
  | .i2c cmd _ => cmd.toNat

/-- The `mask` and `match` columns of the instruction's row in spec/opcode_table.json. -/
def maskAndMatch : Instr → Nat × Nat
  | .ledSetup => (0xFF, 0x01)
  | .ledSetSimulation _ => (0xFF, 0x02)
  | .ledSetPixel .. => (0xFF, 0x10)
  | .ledSetAll .. => (0xFF, 0x11)
  | .ledSetBrightness _ => (0xFF, 0x12)
  | .ledClear => (0xFF, 0x13)
  | .ledShow => (0xFF, 0x14)
  | .ledExit => (0xFF, 0x15)
  | .dispSetup => (0xFF, 0x21)
  | .dispSetSimulation _ => (0xFF, 0x22)
  | .dispSetBlink _ => (0xFF, 0x30)
  | .dispSetBrightness _ => (0xFF, 0x31)
  | .dispWriteDisplay => (0xFF, 0x32)
  | .dispSetDigitRaw .. => (0xFF, 0x40)
  | .dispSetDecimal .. => (0xFF, 0x41)
  | .dispSetDigit .. => (0xFF, 0x42)
  | .dispPrintStr .. => (0xFF, 0x43)
  | .ledSof => (0xFFFFFFFF, 0x00000000)
  | .ledPixelWord .. => (0xE0000000, 0xE0000000)
  | .ledEof => (0xFFFFFFFFF, 0x000000000)
  | .i2cData _ => (0xFF, 0x00)
  | .i2cOscOn => (0xFF, 0x21)
  | .i2cBlink _ => (0xF9, 0x81)
  | .i2cDim _ => (0xF0, 0xE0)

/-- Under the table's values of the parameters, an instruction's encoding has its row's fixed bits. -/
abbrev Statement (i : Instr) : Prop :=
  tableBits (encode Machine.defaultConfig i) &&& (maskAndMatch i).1 = (maskAndMatch i).2

theorem ledSetup : Statement .ledSetup := by
  simp [Statement, tableBits, maskAndMatch, encode]
theorem ledSetSimulation (v : Bool) : Statement (.ledSetSimulation v) := by
  simp [Statement, tableBits, maskAndMatch, encode]
theorem ledSetPixel (index : Nat) (r g b : Byte) (q : Brightness) : Statement (.ledSetPixel index r g b q) := by
  simp [Statement, tableBits, maskAndMatch, encode]
theorem ledSetAll (r g b : Byte) (q : Brightness) : Statement (.ledSetAll r g b q) := by
  simp [Statement, tableBits, maskAndMatch, encode]
theorem ledSetBrightness (q : Brightness) : Statement (.ledSetBrightness q) := by
  simp [Statement, tableBits, maskAndMatch, encode]
theorem ledClear : Statement .ledClear := by
  simp [Statement, tableBits, maskAndMatch, encode]
theorem ledShow : Statement .ledShow := by
  simp [Statement, tableBits, maskAndMatch, encode]
theorem ledExit : Statement .ledExit := by
  simp [Statement, tableBits, maskAndMatch, encode]
theorem dispSetup : Statement .dispSetup := by
  simp [Statement, tableBits, maskAndMatch, encode]
theorem dispSetSimulation (v : Bool) : Statement (.dispSetSimulation v) := by
  simp [Statement, tableBits, maskAndMatch, encode]
theorem dispSetBlink (code : Byte) : Statement (.dispSetBlink code) := by
  simp [Statement, tableBits, maskAndMatch, encode]
theorem dispSetBrightness (level : Byte) : Statement (.dispSetBrightness level) := by
  simp [Statement, tableBits, maskAndMatch, encode]
theorem dispWriteDisplay : Statement .dispWriteDisplay := by
  simp [Statement, tableBits, maskAndMatch, encode]
theorem dispSetDigitRaw (pos : Int) (mask : BitVec 16) : Statement (.dispSetDigitRaw pos mask) := by
  simp [Statement, tableBits, maskAndMatch, encode]
theorem dispSetDecimal (pos : Int) (on : Bool) : Statement (.dispSetDecimal pos on) := by
  simp [Statement, tableBits, maskAndMatch, encode]
theorem dispSetDigit (pos : Int) (ch : Char) (dp : Bool) : Statement (.dispSetDigit pos ch dp) := by
  simp [Statement, tableBits, maskAndMatch, encode]
theorem dispPrintStr (text : List Char) (jr : Bool) : Statement (.dispPrintStr text jr) := by
  simp [Statement, tableBits, maskAndMatch, encode]
theorem ledSof : Statement .ledSof := by
  decide

theorem ledPixelWord (br : BitVec 5) (b g r : Byte) : Statement (.ledPixelWord br b g r) := by
  have h : (pixelWord br b g r) &&& 0xE0000000#32 = 0xE0000000#32 := by
    apply BitVec.eq_of_getLsbD_eq
    intro i hi
    have hcases : i < 29 ∨ i = 29 ∨ i = 30 ∨ i = 31 := by omega
    have hmask : ∀ j, j < 29 → (0xE0000000#32).getLsbD j = false := by decide
    rcases hcases with h | rfl | rfl | rfl
    · simp [hmask i h]
    all_goals
      simp only [pixelWord, BitVec.getLsbD_and, BitVec.getLsbD_append]
      rfl
  have := congrArg BitVec.toNat h
  rw [BitVec.toNat_and] at this
  show natOfBits (bitsMsb (pixelWord br b g r)) &&& 0xE0000000 = 0xE0000000
  rw [natOfBits_bitsMsb]
  exact this

theorem ledEof : Statement .ledEof := by
  decide
theorem i2cData (payload : Vector Byte 8) : Statement (.i2cData payload) := by
  simp [Statement, tableBits, maskAndMatch, encode, cmdData]
theorem i2cOscOn : Statement .i2cOscOn := by
  simp [Statement, tableBits, maskAndMatch, encode, Machine.defaultConfig]
theorem i2cBlink (f : BlinkFreq) : Statement (.i2cBlink f) := by cases f <;> rfl

theorem i2cDim (level : BitVec 4) : Statement (.i2cDim level) := by
  have h : ∀ l : BitVec 4, (dimCmd Machine.defaultConfig l) &&& 0xF0#8 = 0xE0#8 := by decide
  have := congrArg BitVec.toNat (h level)
  rw [BitVec.toNat_and] at this
  exact this

end Sys2Proof.Laws.TableRow
end

