-- ==== Sys2Proof/Machine/Assembly.lean ====
section
/-! DEFINITION. The text form of a host program (spec/30_encoding.md R57): `MNEMONIC operand, operand, ...`, one operation a
line. Integers are decimal or `0x`; a brightness is a decimal fraction or `p/q`; a character is in single quotes and a string in
double quotes; Booleans are `true` and `false`. What R57 leaves open of the text (spaces, signs, no escapes): log 16. -/

namespace Sys2Proof.Machine

/-- A reader of the front of a text: what it read, and the rest. -/
abbrev Reader (α : Type) := List Char → Option (α × List Char)

/-- The text without its leading spaces. -/
def skipSpaces : List Char → List Char
  | ' ' :: rest => skipSpaces rest
  | cs => cs

/-- The value of a digit, if it is one in this base. -/
def digitValue (base : Nat) (c : Char) : Option Nat :=
  let v :=
    if '0' ≤ c ∧ c ≤ '9' then c.toNat - 48
    else if 'a' ≤ c ∧ c ≤ 'f' then c.toNat - 87
    else if 'A' ≤ c ∧ c ≤ 'F' then c.toNat - 55
    else base
  if v < base then some v else none

/-- The digits at the front: their value after `acc`, how many there are after `count`, and the rest. -/
def readDigits (base acc count : Nat) : List Char → Nat × Nat × List Char
  | [] => (acc, count, [])
  | c :: cs =>
    match digitValue base c with
    | some v => readDigits base (base * acc + v) (count + 1) cs
    | none => (acc, count, c :: cs)

/-- At least one digit in a base. -/
def readBase (base : Nat) : Reader Nat := fun cs =>
  match readDigits base 0 0 cs with
  | (_, 0, _) => none
  | (v, _, rest) => some (v, rest)

/-- An unsigned integer, decimal or `0x`. -/
def readNat : Reader Nat
  | '0' :: 'x' :: rest => readBase 16 rest
  | cs => readBase 10 cs

/-- A signed integer. -/
def readInt : Reader Int
  | '-' :: rest => (readNat rest).map fun r => (-(r.1 : Int), r.2)
  | cs => (readNat cs).map fun r => ((r.1 : Int), r.2)

/-- An unsigned number of `n` bits; a wider one cannot be written (R55). -/
def readWord (n : Nat) : Reader (BitVec n) := fun cs =>
  match readNat cs with
  | some (v, rest) => if v < 2 ^ n then some (BitVec.ofNat n v, rest) else none
  | none => none

/-- What stands after the whole part of a brightness: `.digits`, `/q`, or nothing. R57 does not say whether `q` may be written in
`0x`: here it is decimal. DESIGN CHOICE, log 16. -/
def readFraction (whole : Nat) : Reader (Nat × Nat)
  | '.' :: rest =>
    match readDigits 10 whole 0 rest with
    | (_, 0, _) => none
    | (v, k, rest) => some ((v, 10 ^ k), rest)
  | '/' :: rest => (readBase 10 rest).map fun r => ((whole, r.1), r.2)
  | rest => some ((whole, 1), rest)

/-- A brightness: a decimal fraction or `p/q`. R57 does not say whether `p` may be written in `0x`, nor whether a whole number or a
minus sign may stand: here `p` is decimal, and both may. DESIGN CHOICE, log 16. -/
def readBright (cs : List Char) : Option (Brightness × List Char) :=
  let (negative, cs) := match cs with
    | '-' :: rest => (true, rest)
    | _ => (false, cs)
  match readBase 10 cs with
  | none => none
  | some (whole, rest) =>
    match readFraction whole rest with
    | none => none
    | some ((n, d), rest) => some (.ratio (if negative then -(n : Int) else n) d, rest)

/-- `true` or `false`. -/
def readBool : Reader Bool
  | 't' :: 'r' :: 'u' :: 'e' :: rest => some (true, rest)
  | 'f' :: 'a' :: 'l' :: 's' :: 'e' :: rest => some (false, rest)
  | _ => none

/-- A character in single quotes. -/
def readChar : Reader Char
  | '\'' :: c :: '\'' :: rest => some (c, rest)
  | _ => none

/-- The characters up to the closing double quote. -/
def readTextBody : Reader (List Char)
  | [] => none
  | '"' :: rest => some ([], rest)
  | c :: cs => (readTextBody cs).map fun r => (c :: r.1, r.2)

/-- A string in double quotes. -/
def readText : Reader (List Char)
  | '"' :: rest => readTextBody rest
  | _ => none

/-- One operand of a kind. -/
def readOperand (kind : OperandKind) (cs : List Char) : Option (Operand × List Char) :=
  match kind with
  | .bool => (readBool cs).map fun r => (.bool r.1, r.2)
  | .nat => (readNat cs).map fun r => (.nat r.1, r.2)
  | .int => (readInt cs).map fun r => (.int r.1, r.2)
  | .u8 => (readWord 8 cs).map fun r => (.u8 r.1, r.2)
  | .u16 => (readWord 16 cs).map fun r => (.u16 r.1, r.2)
  | .bright => (readBright cs).map fun r => (.bright r.1, r.2)
  | .char => (readChar cs).map fun r => (.char r.1, r.2)
  | .text => (readText cs).map fun r => (.text r.1, r.2)

/-- The operands of a record in the order of R54, separated by commas. -/
def readOperands : List OperandKind → List Char → Option (List Operand × List Char)
  | [], cs => some ([], cs)
  | [kind], cs => (readOperand kind (skipSpaces cs)).map fun r => ([r.1], r.2)
  | kind :: kinds, cs =>
    match readOperand kind (skipSpaces cs) with
    | none => none
    | some (v, rest) =>
      match skipSpaces rest with
      | ',' :: rest => (readOperands kinds rest).map fun r => (v :: r.1, r.2)
      | _ => none

/-- One line of a host program (R57): the request it writes. -/
def assembleLine (line : String) : Option Request :=
  let cs := skipSpaces line.toList
  let name := cs.takeWhile fun c => c != ' '
  match hostRows.find? fun row => row.mnemonic.toList == name with
  | none => none
  | some row =>
    match readOperands row.kinds (cs.drop name.length) with
    | some (operands, rest) => if (skipSpaces rest).isEmpty then some (.host row.selector operands) else none
    | none => none

/-- A host program, one operation a line. -/
def assemble : List String → Option (List Request)
  | [] => some []
  | line :: lines =>
    match assembleLine line, assemble lines with
    | some r, some rs => some (r :: rs)
    | _, _ => none

end Sys2Proof.Machine
end

