-- ==== Sys2Proof/Tests/Slice0.lean ====
section
/-! SUPPORT. Tests of the model, each from a vector of spec/95_test_vectors.md or worked out by hand from the rule it names; then,
for every statement with hypotheses, a state and operands that meet them. -/

namespace Sys2Proof.Tests

open Sys2Proof.Machine

/-! ## Helper states -/

/-- An environment in which every call succeeds, from reset (95_test_vectors). -/
def fresh : State := { State.reset with
  claims := { script := [.ok, .ok, .ok], drawn := 0 }
  csLevels := { script := [.high], drawn := 0 }
  busReplies := { script := [.ok, .ok, .ok, .ok, .ok], drawn := 0 } }

/-- The LED driver physically set up. -/
def ledUp : State := { fresh with
  led := { isSetup := true, sim := false }
  lines := { dat := .driven .low, clk := .driven .low, cs := .driven .high } }

/-- The display physically set up, with the history its setup leaves. -/
def dispUp : State := { fresh with
  disp := { isSetup := true, sim := false }
  ctl := { blink := .off, br := 0#4, initialized := true }
  bus := .opened 0x70#7
  history := [.busOpen, .addr 0x70#7, .write 0x21#8 [], .write 0x81#8 [], .write 0xE0#8 []] }

/-- Both drivers simulated and set up. -/
def simUp : State := { fresh with
  led := { isSetup := true, sim := true }
  disp := { isSetup := true, sim := true }
  ctl := { blink := .off, br := 0#4, initialized := true } }

/-- Both drivers simulated and not set up. -/
def simFresh : State := { fresh with led := { isSetup := false, sim := true }, disp := { isSetup := false, sim := true } }

/-- Every pixel 9, 8, 7 at level 5 (95_test_vectors V2). -/
def lit : State := { fresh with px := Vector.replicate 7 { r := 9#8, g := 8#8, b := 7#8, br := 5#5 } }

/-- The segment buffer of 95_test_vectors P3. -/
def seg8 : Vector Byte 8 := #v[0x11#8, 0x22#8, 0x33#8, 0x44#8, 0x55#8, 0x66#8, 0x77#8, 0x88#8]

/-- A state whose answers to claims are these. -/
def claiming (script : List Reply) : State := { fresh with claims := { script := script, drawn := 0 } }

/-- A state whose answers on the bus are these. -/
def replying (script : List Reply) : State := { fresh with busReplies := { script := script, drawn := 0 } }

/-- A state with another order of storing and setting up, and a stored level of 15 (95_test_vectors V5). -/
def ordered (order : CtlOrder) : State := { fresh with
  cfg := { defaultConfig with ctlOrder := order }, ctl := { blink := .off, br := 15#4, initialized := false } }

/-- Whether an outcome is a next state that passes a check. -/
def ends (o : Host.Outcome State Fault Refusal) (check : State → Bool) : Bool :=
  match o with
  | .next t => check t
  | .fault _ => false
  | .refused _ => false

/-- Whether an outcome is this refusal. -/
def refuses (o : Host.Outcome State Fault Refusal) (why : Refusal) : Bool :=
  match o with
  | .next _ => false
  | .fault _ => false
  | .refused r => r == why

/-- The glyph bytes of `'A'` with no decimal point (43_glyph R112). -/
def glyphA : List Byte := [0xF7#8, 0x00#8]

/-! ## Well-formedness: what the check refuses, and the decoder with it -/

theorem test_wf_refuses_pixel_over_zero : (Instr.ledSetPixel 0 1#8 2#8 3#8 (.ratio 1 0)).wf = false := by decide

theorem test_wf_refuses_all_over_zero : (Instr.ledSetAll 1#8 2#8 3#8 (.ratio 0 0)).wf = false := by decide

theorem test_wf_refuses_brightness_over_zero : (Instr.ledSetBrightness (.ratio 5 0)).wf = false := by decide

theorem test_decode_refuses_brightness_over_zero :
    decode defaultConfig (.host 0x12#8 [.bright (.ratio 5 0)]) = .error (.wrongOperands 0x12#8) := by decide

/-! ## Decoding, against the encodings of 30_encoding R54 and R60 to R69 -/

theorem test_decode_led_lifecycle :
    decode defaultConfig (.host 0x01#8 []) = .ok .ledSetup ∧
    decode defaultConfig (.host 0x02#8 [.bool true]) = .ok (.ledSetSimulation true) := by decide

theorem test_decode_set_pixel :
    decode defaultConfig (.host 0x10#8 [.nat 6, .u8 0x12#8, .u8 0x34#8, .u8 0x56#8, .bright (.ratio 1 2)]) =
      .ok (.ledSetPixel 6 0x12#8 0x34#8 0x56#8 (.ratio 1 2)) := by decide

theorem test_decode_led_buffer :
    decode defaultConfig (.host 0x11#8 [.u8 1#8, .u8 2#8, .u8 3#8, .bright (.ratio 1 10)]) =
      .ok (.ledSetAll 1#8 2#8 3#8 (.ratio 1 10)) ∧
    decode defaultConfig (.host 0x12#8 [.bright (.ratio 1 1)]) = .ok (.ledSetBrightness (.ratio 1 1)) ∧
    decode defaultConfig (.host 0x13#8 []) = .ok .ledClear := by decide

theorem test_decode_led_output :
    decode defaultConfig (.host 0x14#8 []) = .ok .ledShow ∧ decode defaultConfig (.host 0x15#8 []) = .ok .ledExit := by decide

theorem test_decode_disp_lifecycle :
    decode defaultConfig (.host 0x21#8 []) = .ok .dispSetup ∧
    decode defaultConfig (.host 0x22#8 [.bool false]) = .ok (.dispSetSimulation false) := by decide

theorem test_decode_disp_controller :
    decode defaultConfig (.host 0x30#8 [.u8 3#8]) = .ok (.dispSetBlink 3#8) ∧
    decode defaultConfig (.host 0x31#8 [.u8 16#8]) = .ok (.dispSetBrightness 16#8) ∧
    decode defaultConfig (.host 0x32#8 []) = .ok .dispWriteDisplay := by decide

theorem test_decode_glyph_layer :
    decode defaultConfig (.host 0x40#8 [.int (-1), .u16 0xBEEF#16]) = .ok (.dispSetDigitRaw (-1) 0xBEEF#16) ∧
    decode defaultConfig (.host 0x41#8 [.int 2, .bool true]) = .ok (.dispSetDecimal 2 true) ∧
    decode defaultConfig (.host 0x42#8 [.int 1, .char 'A', .bool true]) = .ok (.dispSetDigit 1 'A' true) ∧
    decode defaultConfig (.host 0x43#8 [.text ['H', 'I'], .bool true]) = .ok (.dispPrintStr ['H', 'I'] true) := by decide

theorem test_decode_refuses_unassigned_selector :
    decode defaultConfig (.host 0x50#8 []) = .error (.unknownSelector 0x50#8) := by decide

theorem test_decode_refuses_wrong_record :
    decode defaultConfig (.host 0x14#8 [.bool true]) = .error (.wrongOperands 0x14#8) := by decide

/-- The word of R61 bit by bit: `111`, level 16, blue 56, green 34, red 12 (the last word of 95_test_vectors P1). -/
theorem test_decode_pixel_word :
    decode defaultConfig (.led [
      true, true, true, true, false, false, false, false,
      false, true, false, true, false, true, true, false,
      false, false, true, true, false, true, false, false,
      false, false, false, true, false, false, true, false]) =
      .ok (.ledPixelWord 16#5 0x56#8 0x34#8 0x12#8) := by decide

theorem test_decode_frame_ends :
    decode defaultConfig (.led (List.replicate 32 false)) = .ok .ledSof ∧
    decode defaultConfig (.led (List.replicate 36 false)) = .ok .ledEof ∧
    decode defaultConfig (.led (List.replicate 33 false)) = .error .unknownLedUnit := by decide

/-- A word without `111` in front is no word of the frame (30_encoding R74). -/
theorem test_decode_refuses_short_control_field :
    decode defaultConfig (.led ([true, true, false] ++ List.replicate 29 false)) = .error .unknownLedUnit := by decide

theorem test_decode_bus_commands :
    decode defaultConfig (.i2c 0x21#8 []) = .ok .i2cOscOn ∧
    decode defaultConfig (.i2c 0x87#8 []) = .ok (.i2cBlink .hz05) ∧
    decode defaultConfig (.i2c 0xEF#8 []) = .ok (.i2cDim 15#4) ∧
    decode defaultConfig (.i2c 0x80#8 []) = .error (.unknownBusWrite 0x80#8) := by decide

theorem test_decode_bus_data :
    decode defaultConfig (.i2c 0x00#8 [0x11#8, 0x22#8, 0x33#8, 0x44#8, 0x55#8, 0x66#8, 0x77#8, 0x88#8]) = .ok (.i2cData seg8) ∧
    decode defaultConfig (.i2c 0x00#8 [0x11#8]) = .error (.unknownBusWrite 0x00#8) := by decide

/-! ## The text form (30_encoding R57) -/

theorem test_assemble_set_pixel :
    assembleLine "LED.SET_PIXEL 0, 255, 0, 0, 1.0" =
      some (.host 0x10#8 [.nat 0, .u8 255#8, .u8 0#8, .u8 0#8, .bright (.ratio 10 10)]) := by decide

theorem test_assemble_print_str :
    assembleLine "DISP.PRINT_STR \"A A\", true" = some (.host 0x43#8 [.text ['A', ' ', 'A'], .bool true]) := by decide

theorem test_assemble_set_digit_raw :
    assembleLine "DISP.SET_DIGIT_RAW -1, 0xFFFF" = some (.host 0x40#8 [.int (-1), .u16 0xFFFF#16]) := by decide

/-- "An operand wider than 8 bits cannot be written" (R55). -/
theorem test_assemble_refuses_wide_byte : assembleLine "DISP.SET_BRIGHTNESS 256" = none := by decide

/-! ## The quantizer (95_test_vectors V1) -/

theorem test_quant_ties_round_up :
    quant .exact (.ratio 1 63) = 0#5 ∧ quant .exact (.ratio 1 62) = 1#5 ∧ quant .exact (.ratio 1 2) = 16#5 ∧
    quant .exact (.ratio 61 62) = 31#5 := by decide

/-- One half is 3FE0 0000 0000 0000 as a binary64, and its 31-fold is exact there. -/
theorem test_quant_binary64_half :
    quant .binary64 (.f64 0x3FE0000000000000#64) = 16#5 ∧ quant .binary64 (.ratio 1 1) = 31#5 := by decide

/-- NaN and the infinities are outside [0, 1] (92_eei_decisions D2). -/
theorem test_bright_refuses_nan_and_infinity :
    legalBright (.f64 0x7FF8000000000000#64) = false ∧ legalBright (.f64 0x7FF0000000000000#64) = false := by decide

/-! ## Effects, one step each -/

theorem test_led_setup_claims :
    ends (exec .ledSetup fresh) (fun t => t.history == [.claim .dat, .claim .clk, .claim .cs] && t.led.isSetup &&
      t.lines == { dat := .driven .low, clk := .driven .low, cs := .driven .high }) = true := by decide

theorem test_led_setup_simulated_is_silent :
    ends (exec .ledSetup simFresh) (fun t => t.history == [] && t.led.isSetup && t.lines.dat == .unclaimed) = true := by decide

theorem test_led_simulation_change_after_setup :
    ends (exec (.ledSetSimulation false) simUp) (fun t => t.fault == some (.simChangedAfterSetup .led false) && t.led.sim) =
      true := by decide

theorem test_led_simulation_change_before_setup :
    ends (exec (.ledSetSimulation true) fresh) (fun t => t.led.sim && t.fault == none) = true := by decide

theorem test_set_pixel_half :
    ends (exec (.ledSetPixel 2 0x12#8 0x34#8 0x56#8 (.ratio 1 2)) fresh) (fun t =>
      t.px[2] == { r := 0x12#8, g := 0x34#8, b := 0x56#8, br := 16#5 } && t.px[1] == fresh.px[1]) = true := by decide

/-- The brightness check comes before the index check (92_eei_decisions D17). -/
theorem test_set_pixel_brightness_first :
    ends (exec (.ledSetPixel 9 0#8 0#8 0#8 (.ratio 3 2)) fresh) (fun t =>
      t.fault == some (.ledBrightnessRange (.ratio 3 2)) && t.px == fresh.px) = true := by decide

theorem test_set_all_tenth :
    ends (exec (.ledSetAll 1#8 2#8 3#8 (.ratio 1 10)) fresh) (fun t =>
      t.px == Vector.replicate 7 { r := 1#8, g := 2#8, b := 3#8, br := 3#5 }) = true := by decide

theorem test_set_brightness_keeps_colours :
    ends (exec (.ledSetBrightness (.ratio 1 1)) lit) (fun t =>
      t.px == Vector.replicate 7 { r := 9#8, g := 8#8, b := 7#8, br := 31#5 }) = true := by decide

theorem test_set_brightness_refuses_negative :
    ends (exec (.ledSetBrightness (.ratio (-1) 2)) lit) (fun t => t.fault.map (·.code) == some 4 && t.px == lit.px) = true := by
  decide

theorem test_clear_keeps_levels :
    ends (exec .ledClear lit) (fun t => t.px == Vector.replicate 7 { r := 0#8, g := 0#8, b := 0#8, br := 5#5 }) = true := by decide

set_option maxRecDepth 20000 in
/-- A frame of dark pixels has 21 one-bits: `111` seven times (95_test_vectors V3). -/
theorem test_dark_frame_ones : (frameBits fresh.px).count true = 21 := by decide

set_option maxRecDepth 20000 in
/-- 1465 events on the first `show` (95_test_vectors V3). -/
theorem test_first_show_events : ends (exec .ledShow fresh) (fun t => t.history.length == 1465) = true := by decide

theorem test_show_claim_of_clk_fails :
    ends (exec .ledShow (claiming [.ok, .error 5])) (fun t => t.history == [.claim .dat, .claim .clk] &&
      t.fault == some (.pinClaimFailed .clk 5) && !t.led.isSetup) = true := by decide

set_option maxRecDepth 20000 in
/-- One word of the frame that `exit` sends: a colour of zero at level 5 is E5 00 00 00. -/
theorem test_exit_sends_dark_words :
    ends (exec .ledExit { lit with led := { isSetup := true, sim := false } }) (fun t =>
      (sampledStreams .low t.history).map (fun bits => (bits.drop 32).take 32) == [bitsMsb 0xE5000000#32]) = true := by decide

theorem test_disp_setup_sequence :
    ends (exec .dispSetup fresh) (fun t => t.history == [.busOpen, .addr 0x70#7, .write 0x21#8 [], .write 0x81#8 [], .write 0xE0#8 []]
      && t.disp.isSetup && t.ctl.initialized && t.bus == .opened 0x70#7) = true := by decide

theorem test_disp_setup_simulated_is_silent :
    ends (exec .dispSetup simFresh) (fun t => t.history == [] && t.disp.isSetup && t.ctl.initialized && t.bus == .closed) = true := by
  decide

theorem test_disp_simulation_same_value :
    ends (exec (.dispSetSimulation true) simUp) (fun t => t == simUp) = true := by decide

theorem test_set_blink_three :
    ends (exec (.dispSetBlink 3#8) dispUp) (fun t => t.ctl.blink == .hz05 && t.history == dispUp.history ++ [.write 0x87#8 []]) =
      true := by decide

theorem test_set_blink_four_unsupported :
    ends (exec (.dispSetBlink 4#8) dispUp) (fun t => t.fault == some (.blinkUnsupported 4#8) && t.ctl == dispUp.ctl &&
      t.history == dispUp.history) = true := by decide

/-- The order of 95_test_vectors V5: level 8 from reset with a stored level of 15. -/
theorem test_set_disp_brightness_orders :
    ends (exec (.dispSetBrightness 8#8) (ordered .storeFirst)) (fun t => t.history ==
      [.busOpen, .addr 0x70#7, .write 0x21#8 [], .write 0x81#8 [], .write 0xE8#8 [], .write 0xE8#8 []]) = true ∧
    ends (exec (.dispSetBrightness 8#8) (ordered .setupFirst)) (fun t => t.history ==
      [.busOpen, .addr 0x70#7, .write 0x21#8 [], .write 0x81#8 [], .write 0xEF#8 [], .write 0xE8#8 []]) = true := by decide

theorem test_set_disp_brightness_sixteen :
    ends (exec (.dispSetBrightness 16#8) simUp) (fun t => t.fault == some (.dispBrightnessRange 16#8)) = true := by decide

theorem test_write_display :
    ends (exec .dispWriteDisplay { dispUp with seg := seg8 }) (fun t => t.history == dispUp.history ++
      [.write 0x00#8 [0x11#8, 0x22#8, 0x33#8, 0x44#8, 0x55#8, 0x66#8, 0x77#8, 0x88#8]]) = true := by decide

theorem test_write_display_open_fails :
    ends (exec .dispWriteDisplay (replying [.error 9])) (fun t => t.history == [.busOpen] && t.fault == some (.busOpenFailed 9) &&
      !t.disp.isSetup) = true := by decide

theorem test_set_digit_raw_low_byte_first :
    ends (exec (.dispSetDigitRaw 3 0xBEEF#16) { fresh with seg := seg8 }) (fun t =>
      t.seg == #v[0x11#8, 0x22#8, 0x33#8, 0x44#8, 0x55#8, 0x66#8, 0xEF#8, 0xBE#8]) = true := by decide

theorem test_set_digit_raw_outside :
    ends (exec (.dispSetDigitRaw (-1) 0xFFFF#16) fresh) (fun t => t == fresh) = true := by decide

theorem test_set_decimal_on :
    ends (exec (.dispSetDecimal 1 true) { fresh with seg := fresh.seg.set 3 0x12#8 }) (fun t => t.seg[3] == 0x52#8) = true := by decide

theorem test_set_decimal_off :
    ends (exec (.dispSetDecimal 1 false) { fresh with seg := fresh.seg.set 3 0xFF#8 }) (fun t => t.seg[3] == 0xBF#8) = true := by decide

theorem test_set_digit_with_point :
    ends (exec (.dispSetDigit 0 'A' true) fresh) (fun t => t.seg.toList.take 2 == [0xF7#8, 0x40#8]) = true := by decide

/-- The lookup comes before the position (92_eei_decisions D23). -/
theorem test_set_digit_lookup_first :
    ends (exec (.dispSetDigit 5 'é' true) fresh) (fun t => t.fault == some (.glyphNotFound 'é')) = true := by decide

theorem test_print_str_right_clips :
    ends (exec (.dispPrintStr ['H', 'E', 'L', 'L', 'O'] true) fresh) (fun t =>
      t.seg == #v[0xF9#8, 0#8, 0x38#8, 0#8, 0x38#8, 0#8, 0x3F#8, 0#8]) = true := by decide

theorem test_print_str_stops_midway :
    ends (exec (.dispPrintStr ['A', 'é', 'A'] false) { fresh with seg := seg8 }) (fun t =>
      t.seg.toList == glyphA ++ seg8.toList.drop 2 && t.fault == some (.glyphNotFound 'é')) = true := by decide

theorem test_sof_sends_zeros :
    ends (exec .ledSof ledUp) (fun t => t.history.count (.pin .clk .high) == 32 && t.history.count (.pin .dat .high) == 0) =
      true := by decide

set_option maxRecDepth 20000 in
theorem test_pixel_word_sends_red_last :
    ends (exec (.ledPixelWord 31#5 0x56#8 0x34#8 0x12#8) ledUp) (fun t =>
      sampledStreams .low (.pin .cs .low :: t.history ++ [.pin .cs .high]) == [bitsMsb 0xFF563412#32]) = true := by decide

theorem test_eof_sends_zeros :
    ends (exec .ledEof ledUp) (fun t => t.history.count (.pin .clk .high) == 36 && t.lines.dat == .driven .low) = true := by decide

/-- The payload sent is the buffer, not the 8 bytes the request spells: position 3 holds 0x8877, and the data write carries it (30_encoding R66, R77). -/
theorem test_i2c_data :
    ends (exec (.i2cData (Vector.replicate 8 0xFF#8)) { dispUp with seg := seg8 }) (fun t => busWrites (t.history.drop 5) ==
      [(0x00#8, [0x11#8, 0x22#8, 0x33#8, 0x44#8, 0x55#8, 0x66#8, 0x77#8, 0x88#8])] && readMask t.seg 3 == 0x8877#16) = true := by
  decide

theorem test_i2c_commands :
    ends (exec .i2cOscOn dispUp) (fun t => (busWrites t.history).getLast? == some (0x21#8, [])) = true ∧
    ends (exec (.i2cBlink .hz1) dispUp) (fun t => (busWrites t.history).getLast? == some (0x85#8, [])) = true ∧
    ends (exec (.i2cDim 7#4) dispUp) (fun t => (busWrites t.history).getLast? == some (0xE7#8, [])) = true := by decide

/-- The first request after reset runs, with the environment's answers free. -/
theorem test_step_runs_placed_word :
    ends (step (State.reset.withFetchWord 8 0x13)) (fun t => t.inbox == [] && t.px == State.reset.px) = true := by decide

/-! ## Witnesses: for each statement with hypotheses, a state and operands that meet them -/

/-- A state with this request in front. -/
def asked (s : State) (r : Request) : State := { s with inbox := [r] }

theorem witness_SelectorMapIsExact :
    Brightness.wf (.ratio 0 1) = true ∧ Brightness.wf (.ratio 3 2) = true ∧ Brightness.wf (.f64 0#64) = true ∧
    ∀ selector ∈ [0x00#8, 0x20#8, 0x50#8, 0xFF#8], selector ∉ [0x01#8, 0x02#8, 0x10#8, 0x11#8, 0x12#8, 0x13#8, 0x14#8, 0x15#8,
      0x21#8, 0x22#8, 0x30#8, 0x31#8, 0x32#8, 0x40#8, 0x41#8, 0x42#8, 0x43#8] := by decide

theorem witness_HostDecodingIsTotal :
    fresh.fault = none ∧ (asked fresh (.host 0x50#8 [])).inbox = .host 0x50#8 [] :: [] ∧
    decode fresh.cfg (.host 0x50#8 []) = .error (.unknownSelector 0x50#8) := by decide

/-- The default parameters tell the formats apart (30_encoding R76). -/
theorem witness_DecodeOfEncodeIsIdentity :
    defaultConfig.CommandsDistinct ∧ (Instr.ledSetAll 0#8 1#8 255#8 (.ratio 3 2)).wf = true ∧ (Instr.i2cDim 15#4).wf = true := by
  decide

theorem witness_EncodeOfDecodeIsIdentity :
    decode defaultConfig (.host 0x31#8 [.u8 255#8]) = .ok (.dispSetBrightness 255#8) ∧
    decode defaultConfig (.i2c 0xE0#8 []) = .ok (.i2cDim 0#4) := by decide

theorem witness_StepRunsDecodedInstruction :
    (asked fresh (.host 0x14#8 [])).fault = none ∧ (asked fresh (.host 0x14#8 [])).inbox = .host 0x14#8 [] :: [] ∧
    decode fresh.cfg (.host 0x14#8 []) = .ok .ledShow ∧ decode fresh.cfg (.host 0x44#8 []) = .error (.unknownSelector 0x44#8) := by
  decide

theorem witness_FaultedBlockIsStuck :
    ({ fresh with fault := some (.dispBrightnessRange 16#8) } : State).fault = some (.dispBrightnessRange 16#8) := by decide

theorem witness_EmptyInboxWaits : fresh.fault = none ∧ fresh.inbox = [] := by decide

/-- A state whose parameter refuses long right-justified texts. -/
def refusing : State := { fresh with cfg := { defaultConfig with printRightLong := .refuse } }

theorem witness_EveryInstructionAnswers :
    refusing.fault = none ∧ 4 < ['A', 'A', 'A', 'A', 'A'].length ∧ refusing.cfg.printRightLong = .refuse ∧
    refuses (exec (.dispPrintStr ['A', 'A', 'A', 'A', 'A'] true) refusing) .printRightLong = true ∧
    ends (exec (.dispPrintStr ['A', 'A', 'A', 'A'] true) refusing) (fun t => t.fault == none) = true := by decide

theorem witness_StepKeepsLifecycleInv :
    (asked dispUp (.host 0x32#8 [])).LifecycleInv ∧ (asked ledUp (.host 0x13#8 [])).LifecycleInv ∧
    ∃ t, step (asked ledUp (.host 0x13#8 [])) = .next t :=
  ⟨by decide, by decide, _, rfl⟩

theorem witness_StepKeepsNoCallUnlessSetUp :
    (asked dispUp (.host 0x32#8 [])).NoCallUnlessSetUp ∧ ∃ t, step (asked dispUp (.host 0x32#8 [])) = .next t :=
  ⟨fun _ d => by cases d <;> decide, _, rfl⟩

theorem witness_StepKeepsBusTrafficLegal :
    dispUp.cfg.Legal ∧ (asked dispUp (.host 0x32#8 [])).BusTrafficLegal ∧ ∃ t, step (asked dispUp (.host 0x32#8 [])) = .next t :=
  ⟨by decide, by decide, _, rfl⟩

theorem witness_StepKeepsFramesWhole :
    (asked fresh (.host 0x01#8 [])).FramesWhole ∧ ∃ t, step (asked fresh (.host 0x01#8 [])) = .next t :=
  ⟨by decide, _, rfl⟩

theorem witness_HostStepKeepsControllerAgrees :
    let s := asked dispUp (.host 0x31#8 [.u8 8#8])
    s.cfg.CommandsDistinct ∧ s.NoCallUnlessSetUp ∧ (∀ r ∈ s.inbox.head?, r.isHost = true) ∧ s.ControllerAgrees ∧
    ∃ t, step s = .next t :=
  ⟨by decide, fun _ d => by cases d <;> decide, by decide, by decide, _, rfl⟩

theorem witness_StepNeverGivesUp :
    ledUp.led.isSetup = true ∧ ledUp.lines.dat.isDriven = true ∧ ledUp.lines.clk.isDriven = true ∧
    ledUp.lines.cs.isDriven = true ∧ dispUp.bus = .opened 0x70#7 ∧ ∃ t, step (asked ledUp (.host 0x13#8 [])) = .next t :=
  ⟨by decide, by decide, by decide, by decide, by decide, _, rfl⟩

/-- Every code of 60_exceptions R124 is recorded by some operation. -/
theorem witness_FaultCodesOfEachOperation :
    ends (exec .ledSetup (claiming [.error 1])) (fun t => t.fault.map (·.code) == some 1) = true ∧
    ends (exec .dispSetup (replying [.error 1])) (fun t => t.fault.map (·.code) == some 2) = true ∧
    ends (exec .dispSetup (replying [.ok, .error 1])) (fun t => t.fault.map (·.code) == some 3) = true ∧
    ends (exec (.ledSetAll 0#8 0#8 0#8 (.ratio 2 1)) fresh) (fun t => t.fault.map (·.code) == some 4) = true ∧
    ends (exec (.dispSetBlink 255#8) fresh) (fun t => t.fault.map (·.code) == some 5) = true ∧
    ends (exec (.dispSetBrightness 16#8) fresh) (fun t => t.fault.map (·.code) == some 6) = true ∧
    ends (exec (.dispSetDigit 0 '\t' false) fresh) (fun t => t.fault.map (·.code) == some 7) = true ∧
    ends (exec (.dispSetSimulation false) simUp) (fun t => t.fault.map (·.code) == some 8) = true := by decide

theorem witness_SimulationFlagRules :
    fresh.fault = none ∧ fresh.led.isSetup = false ∧ fresh.disp.isSetup = false ∧ simUp.fault = none ∧
    simUp.led.isSetup = true ∧ simUp.disp.isSetup = true ∧ true = simUp.led.sim ∧ false ≠ simUp.led.sim ∧
    true = simUp.disp.sim ∧ false ≠ simUp.disp.sim := by decide

theorem witness_SetupOnceAndSimulated :
    simUp.fault = none ∧ simUp.led.isSetup = true ∧ simUp.disp.isSetup = true ∧ simFresh.fault = none ∧
    simFresh.led.isSetup = false ∧ simFresh.led.sim = true ∧ simFresh.disp.isSetup = false ∧ simFresh.disp.sim = true := by decide

theorem witness_LedSetupClaimsLines : fresh.LedFresh ∧ ∀ k < 3, fresh.claimAt k = .ok := by decide

/-- A failure of the first, the second and the third claim. -/
theorem witness_FailedClaimStopsOperation :
    ((claiming [.error 5]).LedFresh ∧ (claiming [.error 5]).claimAt 0 = .error 5) ∧
    ((claiming [.ok, .error 5]).LedFresh ∧ (∀ j < 1, (claiming [.ok, .error 5]).claimAt j = .ok) ∧
      (claiming [.ok, .error 5]).claimAt 1 = .error 5) ∧
    ((claiming [.ok, .ok, .error 5]).LedFresh ∧ [Line.dat, .clk, .cs][2]? = some .cs ∧
      (∀ j < 2, (claiming [.ok, .ok, .error 5]).claimAt j = .ok) ∧ (claiming [.ok, .ok, .error 5]).claimAt 2 = .error 5) := by
  decide

theorem witness_DispSetupSequence : fresh.DispFresh ∧ ∀ k < 4, fresh.busReplyAt k = .ok := by decide

/-- A failure of the open, of the first and of the last write. -/
theorem witness_FailedDispSetupStopsOperation :
    ((replying [.error 9]).DispFresh ∧ (replying [.error 9]).busReplyAt 0 = .error 9) ∧
    ((replying [.ok, .error 9]).DispFresh ∧ (∀ j < 1, (replying [.ok, .error 9]).busReplyAt j = .ok) ∧
      (replying [.ok, .error 9]).busReplyAt 1 = .error 9) ∧
    ((replying [.ok, .ok, .ok, .error 9]).DispFresh ∧ (∀ j < 3, (replying [.ok, .ok, .ok, .error 9]).busReplyAt j = .ok) ∧
      (replying [.ok, .ok, .ok, .error 9]).busReplyAt 3 = .error 9) := by decide

theorem witness_OnlyResourceOperationsSetUp :
    needsResource .ledSetup = true ∧ (∃ t, exec .ledSetup fresh = .next t ∧ t.fault = none) ∧
    needsResource .ledClear = false ∧ ∃ t, exec .ledClear fresh = .next t :=
  ⟨rfl, ⟨_, rfl, by decide⟩, rfl, _, rfl⟩

theorem witness_BufferOperationsTouchOnlyBuffer :
    isBufferOnly .ledClear = true ∧ (∃ t, exec .ledClear fresh = .next t) ∧ Instr.ledClear.driver = .led ∧
    isBufferOnly (.dispSetDecimal 3 true) = true ∧ (∃ t, exec (.dispSetDecimal 3 true) fresh = .next t) ∧
    (Instr.dispSetDecimal 3 true).driver = .disp :=
  ⟨rfl, ⟨_, rfl⟩, rfl, rfl, ⟨_, rfl⟩, rfl⟩

theorem witness_SimulationInvariance :
    (∀ i ∈ [Instr.ledShow], i.isHost = true ∧ i.driver = .led ∧ isSetSimulation i = false) ∧
    (writeSim .led false fresh).CallsSucceed 3 (5 * [Instr.ledShow].length) ∧
    (∀ i ∈ [Instr.dispSetBlink 3#8], i.isHost = true ∧ i.driver = .disp ∧ isSetSimulation i = false) ∧
    (writeSim .disp false fresh).CallsSucceed 3 (5 * [Instr.dispSetBlink 3#8].length) := by decide

/-- The ends of the index range and of the brightness range. -/
theorem witness_SetPixelWritesOneRecord :
    fresh.fault = none ∧ legalBright (.ratio 0 1) = true ∧ legalBright (.ratio 1 1) = true ∧ legalBright (.ratio 101 100) = false ∧
    legalBright (.ratio (-1) 100) = false ∧ 0 < 7 ∧ 6 < 7 ∧ 7 ≤ 7 := by decide

theorem witness_SetAllWritesEveryRecord :
    lit.fault = none ∧ legalBright (.ratio 1 10) = true ∧ legalBright (.ratio 2 1) = false := by decide

theorem witness_SetBrightnessWritesOnlyLevels :
    lit.fault = none ∧ legalBright (.ratio 1 1) = true ∧ legalBright (.ratio (-1) 2) = false := by decide

theorem witness_ClearKeepsLevels : lit.fault = none := by decide

theorem witness_QuantizerIsExactRounding :
    (brightValue (.ratio 1 62) = some (1, 62) ∧ legalBright (.ratio 1 62) = true) ∧
    (brightValue (.ratio 0 1) = some (0, 1) ∧ legalBright (.ratio 0 1) = true) ∧
    (brightValue (.ratio 1 1) = some (1, 1) ∧ legalBright (.ratio 1 1) = true) := by decide

theorem witness_BinaryQuantizerFitsFiveBits : 0 < 62 ∧ 61 ≤ 62 := by decide

theorem witness_LegalBrightnessIsUnitInterval :
    fresh.fault = none ∧ legalBright (.ratio 101 100) = false ∧ legalBright (.f64 0x7FF0000000000000#64) = false ∧
    (0x7FF8000000000000#64).extractLsb' 52 11 = 0x7FF#11 ∧ (0xFFF0000000000000#64).extractLsb' 52 11 = 0x7FF#11 := by decide

theorem witness_ShowAppendsOneFrame :
    fresh.fault = none ∧ fresh.led.sim = false ∧ ∃ t, exec .ledShow fresh = .next t ∧ t.fault = none :=
  ⟨rfl, rfl, _, rfl, by decide⟩

theorem witness_ShowSetsUpThenSends : ledUp.fault = none ∧ ledUp.LedReady ∧ fresh.fault = none := by decide

theorem witness_FirstShowClaimsThenSends : fresh.LedFresh ∧ ∀ k < 3, fresh.claimAt k = .ok := by decide

theorem witness_ExitSendsDarkFrame : fresh.fault = none ∧ ledUp.LedReady := by decide

theorem witness_FrameBitsLayout : 0 < 7 ∧ 6 < 7 := by decide

theorem witness_SetBlinkStoresAndSends :
    dispUp.fault = none ∧ dispUp.cfg.Legal ∧ blinkDecode dispUp.cfg 4#8 = none ∧ blinkDecode dispUp.cfg 0#8 = some .off ∧
    blinkDecode dispUp.cfg 3#8 = some .hz05 ∧ dispUp.disp.isSetup = true ∧ (ordered .storeFirst).cfg.ctlOrder = .storeFirst ∧
    (ordered .setupFirst).cfg.ctlOrder = .setupFirst := by decide

theorem witness_SetDisplayBrightnessStoresAndSends :
    dispUp.fault = none ∧ 15 < (16#8).toNat ∧ 15#8 = (15#4).setWidth 8 ∧ 0#8 = (0#4).setWidth 8 ∧
    dispUp.disp.isSetup = true ∧ (ordered .storeFirst).cfg.ctlOrder = .storeFirst ∧
    (ordered .setupFirst).cfg.ctlOrder = .setupFirst := by decide

theorem witness_FirstControllerCallOrder :
    ((ordered .storeFirst).DispFresh ∧ ∀ k < 5, (ordered .storeFirst).busReplyAt k = .ok) ∧
    ((ordered .setupFirst).DispFresh ∧ ∀ k < 5, (ordered .setupFirst).busReplyAt k = .ok) ∧
    blinkDecode defaultConfig 1#8 = some .hz2 := by decide

theorem witness_WriteDisplaySendsBuffer :
    dispUp.fault = none ∧ dispUp.DispReady ∧ fresh.fault = none := by decide

theorem witness_SimulatedDisplaySendsNothing :
    (simFresh.fault = none ∧ simFresh.disp.sim = true ∧ simFresh.InitializedAgrees) ∧
    (simUp.fault = none ∧ simUp.disp.sim = true ∧ simUp.InitializedAgrees) ∧ blinkDecode simUp.cfg 3#8 = some .hz05 := by decide

/-- The positions at both ends of 0..3 and the two next to them: what the statements about positions suppose. -/
theorem witness_SetDigitRawRoundTrip :
    fresh.fault = none ∧ (0 : Int) = ((0 : Fin 4).val : Int) ∧ (3 : Int) = ((3 : Fin 4).val : Int) ∧
    ((-1 : Int) < 0 ∨ 3 < (-1 : Int)) ∧ ((4 : Int) < 0 ∨ 3 < (4 : Int)) := by decide

theorem witness_SetDecimalWritesOneBit :
    fresh.fault = none ∧ (3 : Int) = ((3 : Fin 4).val : Int) ∧ ((9 : Int) < 0 ∨ 3 < (9 : Int)) := by decide

/-- The codes 32, 126, 31 and 127. -/
theorem witness_LookupDomain :
    ' '.toNat = 32 + (0 : Fin 95).val ∧ '~'.toNat = 32 + (94 : Fin 95).val ∧ ('\x1f'.toNat < 32 ∨ 126 < '\x1f'.toNat) ∧
    ('\x7f'.toNat < 32 ∨ 126 < '\x7f'.toNat) := by decide

theorem witness_SetDigitStoresGlyph :
    fresh.fault = none ∧ lookup fresh.cfg '\x7f' = none ∧ lookup fresh.cfg 'A' = some 0x00F7#16 ∧
    (3 : Int) = ((3 : Fin 4).val : Int) ∧ ((5 : Int) < 0 ∨ 3 < (5 : Int)) := by decide

/-- A text of `'A'` and `' '` has a glyph for each of its characters. -/
theorem glyphs_of_legal_text (text : List Char) (h : text.all (fun ch => ch == 'A' || ch == ' ') = true) :
    ∀ ch ∈ text, lookup defaultConfig ch ≠ none := by
  intro ch hm
  have hc := List.all_eq_true.1 h ch hm
  simp only [Bool.or_eq_true, beq_iff_eq] at hc
  rcases hc with rfl | rfl <;> decide

/-- A text that lies inside the display, and one that hangs over its left end. -/
theorem witness_PrintStrPlacesCharacters :
    fresh.fault = none ∧ refusesText fresh.cfg ['A', 'A', 'A', ' ', 'A'] true = false ∧
    (∀ ch ∈ ['A', 'A', 'A', ' ', 'A'], lookup fresh.cfg ch ≠ none) ∧ refusesText refusing.cfg ['A', 'A', 'A', ' ', 'A'] false = false ∧
    ((0 : Fin 4).val : Int) = (if true then 4 - ((['A', 'A', 'A', ' ', 'A'].length : Nat) : Int) else 0) + ((1 : Nat) : Int) ∧
    ∀ i : Nat, i < ['A'].length → ((0 : Fin 4).val : Int) ≠ (if true then 4 - ((['A'].length : Nat) : Int) else 0) + i :=
  ⟨rfl, by decide, glyphs_of_legal_text _ (by decide), by decide, by decide, by decide⟩

theorem witness_PrintStrFaultsMidway :
    fresh.fault = none ∧ refusesText fresh.cfg (['A'] ++ 'é' :: ['A']) true = false ∧
    (∀ c ∈ ['A'], lookup fresh.cfg c ≠ none) ∧ lookup fresh.cfg 'é' = none :=
  ⟨rfl, by decide, glyphs_of_legal_text _ (by decide), by decide⟩

theorem witness_CompositesEqualExpansions :
    fresh.fault = none ∧ lookup fresh.cfg 'A' = some 0x00F7#16 ∧ lookup fresh.cfg 'é' = none ∧
    refusesText fresh.cfg ['A', 'é', ' ', 'A', 'A'] true = false := by decide

theorem witness_LedUnitsAppendTheirBits : ledUp.LedReady := by decide

theorem witness_BusUnitsAreOneWrite : dispUp.DispReady := by decide

theorem witness_WireUnitsSetUpFirst :
    fresh.fault = none ∧ Instr.ledSof.isHost = false ∧ (simUp.flags Instr.ledSof.driver).isSetup = true ∧
    (simUp.flags Instr.ledSof.driver).sim = true ∧ (∃ u : State, exec .ledSetup fresh = .next u ∧ u.fault = none) ∧
    ∃ u : State, exec .dispSetup (replying [.error 9]) = .next u ∧ u.fault ≠ none :=
  ⟨rfl, rfl, rfl, rfl, ⟨_, rfl, by decide⟩, ⟨_, rfl, by decide⟩⟩

/-- The instructions of each output: a frame, a flush, a stand-alone data write. -/
theorem witness_OutputCarriesTheBuffers :
    (∃ t, exec .ledShow fresh = .next t) ∧ (∃ t, exec .dispWriteDisplay fresh = .next t) ∧
    ∃ t, exec (.i2cData seg8) dispUp = .next t :=
  ⟨⟨_, rfl⟩, ⟨_, rfl⟩, ⟨_, rfl⟩⟩

theorem witness_ShowIsItsWireUnits : ledUp.LedReady := by decide

/-- The display operation runs alike on a state of another pixel buffer. -/
theorem witness_DriversDoNotInterfere :
    (∃ t, exec .dispWriteDisplay dispUp = .next t) ∧ Instr.dispWriteDisplay.driver = .disp ∧ Instr.ledClear.driver = .led ∧
    SameDriver .disp { dispUp with px := lit.px } dispUp :=
  ⟨⟨_, rfl⟩, rfl, rfl, rfl, rfl, rfl, rfl, rfl, rfl⟩

theorem witness_InterleavingIsIndependent :
    ∃ t, execAll [.ledClear, .dispSetDecimal 0 true, .ledSetup] fresh = .next t ∧ t.fault = none :=
  ⟨_, rfl, by decide⟩

end Sys2Proof.Tests
end

section
/-! The scope statements (spec/00_scope.md R11): which instructions are refused, and what a step does with the oldest request. -/

namespace Sys2Proof.Machine

/-! ## Refusal -/

theorem refusesText_iff {cfg : Config} {text : List Char} {jr : Bool} :
    refusesText cfg text jr = true ↔ jr = true ∧ 4 < text.length ∧ cfg.printRightLong = .refuse := by
  simp only [refusesText, Bool.and_eq_true, decide_eq_true_eq, beq_iff_eq, and_assoc]

/-- The parameter refuses right-justified texts of more than 4 characters, and no other instruction (43_glyph R118). -/
theorem refusesInstr_iff {cfg : Config} {i : Instr} :
    refusesInstr cfg i = true ↔
      ∃ text, i = .dispPrintStr text true ∧ 4 < text.length ∧ cfg.printRightLong = .refuse := by
  constructor
  · intro h
    cases i with
    | dispPrintStr text jr =>
      obtain ⟨rfl, hlong, hcfg⟩ := refusesText_iff.1 h
      exact ⟨text, rfl, hlong, hcfg⟩
    | _ => cases h
  · rintro ⟨text, rfl, hlong, hcfg⟩
    exact refusesText_iff.2 ⟨rfl, hlong, hcfg⟩

theorem exec_of_refused {s : State} (h : s.fault = none) {i : Instr} (hr : refusesInstr s.cfg i = true) :
    exec i s = .refused .printRightLong := by
  rw [exec_eq, h, hr]
  rfl

theorem exec_answers_iff {s : State} (h : s.fault = none) {i : Instr} :
    (∃ t, exec i s = .next t) ↔ ¬ refusesInstr s.cfg i = true := by
  simp only [exec_eq_next, h, true_and, exists_and_left, exists_eq', and_true, Bool.not_eq_true]

/-- Settles O10: an instruction is its body unless `PRINT_RIGHT_LONG` refuses it, and `refusesInstr_iff` says when that is. -/
theorem everyInstructionAnswers : Obligations.EveryInstructionAnswers := by
  intro i s hf
  constructor
  · rw [exec_answers_iff hf, refusesInstr_iff]
  · intro text hi hlong hcfg
    exact exec_of_refused hf (refusesInstr_iff.2 ⟨text, hi, hlong, hcfg⟩)

/-! ## Steps -/

theorem nextRequest_of_cons {s : State} {r : Request} {rest : List Request} (h : s.inbox = r :: rest) :
    nextRequest s = some (r, s.withInbox rest) := by
  simp only [nextRequest, h]

/-- With no fault recorded and a request that decodes, a step is its instruction on the state without the request (R11). -/
theorem step_of_decoded {s : State} {r : Request} {rest : List Request} {i : Instr} (hf : s.fault = none)
    (hr : s.inbox = r :: rest) (hd : decode s.cfg r = .ok i) : step s = exec i (s.withInbox rest) := by
  simp only [step, hf, nextRequest_of_cons hr, hd]

/-- With no fault recorded and a request that decodes to nothing, a step is a refusal (30_encoding R56, 60_exceptions R127). -/
theorem step_of_undecodable {s : State} {r : Request} {rest : List Request} {e : DecodeError} (hf : s.fault = none)
    (hr : s.inbox = r :: rest) (hd : decode s.cfg r = .error e) : step s = .refused (.undecodable e) := by
  simp only [step, hf, nextRequest_of_cons hr, hd]

/-- Settles O7: by the two things `decode` can answer to the oldest request. -/
theorem stepRunsDecodedInstruction : Obligations.StepRunsDecodedInstruction :=
  fun _ _ _ hf hr => ⟨fun _ => step_of_decoded hf hr, fun _ => step_of_undecodable hf hr⟩

end Sys2Proof.Machine
end

section
/-! The state statements (spec/10_state.md): the values after construction (R35), what no step gives up (R22, R25 to R27), the
lifecycle invariant (R20, R25, R26), and that the two drivers do not interfere (R21, R34). -/

namespace Sys2Proof.Machine

/-! ## Construction -/

/-- Settles O11: each element is the one `State.construct` names (R35). -/
theorem constructionLeavesResetValues : Obligations.ConstructionLeavesResetValues :=
  fun _ => ⟨rfl, rfl, rfl, rfl, rfl, rfl, rfl, rfl, rfl⟩

theorem construct_lifecycleInv (cfg : Config) : (State.construct cfg).LifecycleInv :=
  ⟨rfl, ⟨.inl rfl, fun _ => by simp [State.construct]⟩, rfl⟩

theorem construct_controllerAgrees (cfg : Config) : (State.construct cfg).ControllerAgrees :=
  fun _ hsetup => Bool.noConfusion hsetup

/-- Settles O12: nothing is set up after construction and the history is empty (R35). -/
theorem constructionMeetsInvariants : Obligations.ConstructionMeetsInvariants := fun cfg =>
  ⟨construct_lifecycleInv cfg, fun _ _ => .inr rfl, rfl, ⟨rfl, rfl⟩, construct_controllerAgrees cfg⟩

/-! ## What setting up can do -/

/-- What the claims of the LED driver can do: one fails, and the lines stay as they are; or none does, and the lines are driven with DAT
and CLK low (40_lifecycle R80). -/
theorem acquireLed_cases (s : State) (hf : s.fault = none) :
    ∃ evs claims,
      (∃ info, acquireLed s = { s with history := s.history ++ evs, claims := claims, fault := some info }) ∨
      (∃ level draws, acquireLed s = { s with
        history := s.history ++ evs, claims := claims, csLevels := draws
        lines := { dat := .driven .low, clk := .driven .low, cs := .driven level } }) := by
  rw [acquireLed_eq s hf]
  cases s.claimAt 0 with
  | error e => exact ⟨_, _, .inl ⟨_, rfl⟩⟩
  | ok =>
    cases s.claimAt 1 with
    | error e => exact ⟨_, _, .inl ⟨_, rfl⟩⟩
    | ok =>
      cases s.claimAt 2 with
      | error e => exact ⟨_, _, .inl ⟨_, rfl⟩⟩
      | ok => exact ⟨_, _, .inr ⟨_, _, rfl⟩⟩

/-- What the calls of the display's setup can do: one fails, with the bus as it was or open at 0x70; or none does, and the bus is open
at 0x70 (42_display_controller R103). -/
theorem acquireDisp_cases (s : State) (hf : s.fault = none) :
    ∃ evs replies,
      (∃ bus info, (bus = s.bus ∨ bus = .opened 0x70#7) ∧
        acquireDisp s = { s with history := s.history ++ evs, bus := bus, busReplies := replies, fault := some info }) ∨
      acquireDisp s = { s with history := s.history ++ evs, bus := .opened 0x70#7, busReplies := replies } := by
  rw [acquireDisp_eq s hf]
  cases s.busReplyAt 0 with
  | error e => exact ⟨_, _, .inl ⟨_, _, .inl rfl, rfl⟩⟩
  | ok =>
    cases s.busReplyAt 1 with
    | error e => exact ⟨_, _, .inl ⟨_, _, .inr rfl, rfl⟩⟩
    | ok =>
      cases s.busReplyAt 2 with
      | error e => exact ⟨_, _, .inl ⟨_, _, .inr rfl, rfl⟩⟩
      | ok =>
        cases s.busReplyAt 3 with
        | error e => exact ⟨_, _, .inl ⟨_, _, .inr rfl, rfl⟩⟩
        | ok => exact ⟨_, _, .inr rfl⟩

/-- What setting up the LED driver can do: nothing once it is set up; the flag alone in simulation; else a failed claim, or the lines
driven and the flag (40_lifecycle R78, R80). -/
theorem ensureSetup_led_cases (s : State) (hf : s.fault = none) :
    (s.led.isSetup = true ∧ ensureSetup .led s = s) ∨
    s.led.isSetup = false ∧
      ((s.led.sim = true ∧ ensureSetup .led s = markSetup .led s) ∨
       (s.led.sim = false ∧ ∃ evs claims info,
          ensureSetup .led s = { s with history := s.history ++ evs, claims := claims, fault := some info }) ∨
       (s.led.sim = false ∧ ∃ evs claims level draws, ensureSetup .led s = { s with
          history := s.history ++ evs, claims := claims, csLevels := draws, led := { s.led with isSetup := true }
          lines := { dat := .driven .low, clk := .driven .low, cs := .driven level } })) := by
  cases hs : s.led.isSetup with
  | true => exact .inl ⟨rfl, ensureSetup_of_setup hs⟩
  | false =>
    refine .inr ⟨rfl, ?_⟩
    cases hsim : s.led.sim with
    | true => exact .inl ⟨rfl, ensureSetup_of_sim hf hs hsim⟩
    | false =>
      refine .inr ?_
      rw [ensureSetup_of_fresh (d := .led) hs hsim, acquire]
      obtain ⟨evs, claims, ⟨info, h⟩ | ⟨level, draws, h⟩⟩ := acquireLed_cases s hf
      · exact .inl ⟨rfl, evs, claims, info, by rw [andThen_of_faulted (by simp [h]), h]⟩
      · exact .inr ⟨rfl, evs, claims, level, draws, by rw [andThen_of_running (by simp [h, hf]), h]; rfl⟩

/-- What setting up the display driver can do: nothing once it is set up; the flags alone in simulation; else a failed call, or the bus
open at 0x70 and the flags (40_lifecycle R78, 42_display_controller R103). -/
theorem ensureSetup_disp_cases (s : State) (hf : s.fault = none) :
    (s.disp.isSetup = true ∧ ensureSetup .disp s = s) ∨
    s.disp.isSetup = false ∧
      ((s.disp.sim = true ∧ ensureSetup .disp s = markSetup .disp s) ∨
       (s.disp.sim = false ∧ ∃ evs replies bus info, (bus = s.bus ∨ bus = .opened 0x70#7) ∧ ensureSetup .disp s = { s with
          history := s.history ++ evs, bus := bus, busReplies := replies, fault := some info }) ∨
       (s.disp.sim = false ∧ ∃ evs replies, ensureSetup .disp s = { s with
          history := s.history ++ evs, bus := .opened 0x70#7, busReplies := replies
          disp := { s.disp with isSetup := true }, ctl := { s.ctl with initialized := true } })) := by
  cases hs : s.disp.isSetup with
  | true => exact .inl ⟨rfl, ensureSetup_of_setup hs⟩
  | false =>
    refine .inr ⟨rfl, ?_⟩
    cases hsim : s.disp.sim with
    | true => exact .inl ⟨rfl, ensureSetup_of_sim hf hs hsim⟩
    | false =>
      refine .inr ?_
      rw [ensureSetup_of_fresh (d := .disp) hs hsim, acquire]
      obtain ⟨evs, replies, ⟨bus, info, hbus, h⟩ | h⟩ := acquireDisp_cases s hf
      · exact .inl ⟨rfl, evs, replies, bus, info, hbus, by rw [andThen_of_faulted (by simp [h]), h]⟩
      · exact .inr ⟨rfl, evs, replies, by rw [andThen_of_running (by simp [h, hf]), h]; rfl⟩

/-! ## Lines after events -/

/-- The lines as a set-up LED driver holds them between operations: all driven, CLK low (R25, 70_reset_and_hazards R154). -/
def Lines.AtRest (l : Lines) : Prop :=
  l.dat.isDriven = true ∧ l.clk = .driven .low ∧ l.cs.isDriven = true

theorem Lines.AtRest.after_cs {l : Lines} (h : l.AtRest) (v : Level) : (l.after (.pin .cs v)).AtRest := by
  obtain ⟨hdat, hclk, -⟩ := h
  exact ⟨hdat, hclk, rfl⟩

theorem Lines.AtRest.after_bit {l : Lines} (h : l.AtRest) (b : Bool) : ((bitEvents b).foldl Lines.after l).AtRest := by
  obtain ⟨-, -, hcs⟩ := h
  exact ⟨rfl, rfl, hcs⟩

theorem Lines.AtRest.after_bits {l : Lines} (h : l.AtRest) (bits : List Bool) :
    ((bitsEvents bits).foldl Lines.after l).AtRest := by
  induction bits generalizing l with
  | nil => exact h
  | cons b bits ih =>
    rw [bitsEvents, List.flatMap_cons, List.foldl_append]
    exact ih (h.after_bit b)

theorem Lines.AtRest.after_frame {l : Lines} (h : l.AtRest) (active : Level) (px : Vector Pixel 7) :
    ((frameEvents active px).foldl Lines.after l).AtRest := by
  rw [frameEvents_eq, List.foldl_append, List.foldl_append]
  exact ((h.after_cs active).after_bits _).after_cs active.not

/-- Every line that is driven in the first is driven in the second (R25). -/
def Lines.StayDriven (l l' : Lines) : Prop :=
  (l.dat.isDriven = true → l'.dat.isDriven = true) ∧ (l.clk.isDriven = true → l'.clk.isDriven = true) ∧
  (l.cs.isDriven = true → l'.cs.isDriven = true)

theorem Lines.StayDriven.refl (l : Lines) : l.StayDriven l := ⟨id, id, id⟩

theorem Lines.StayDriven.trans {l l' l'' : Lines} (h : l.StayDriven l') (h' : l'.StayDriven l'') : l.StayDriven l'' := by
  obtain ⟨hdat, hclk, hcs⟩ := h
  obtain ⟨hdat', hclk', hcs'⟩ := h'
  exact ⟨hdat' ∘ hdat, hclk' ∘ hclk, hcs' ∘ hcs⟩

theorem Lines.stayDriven_after (l : Lines) (e : Event) : l.StayDriven (l.after e) := by
  cases e with
  | pin line v => cases line <;> simp [Lines.StayDriven, Lines.after, LineState.isDriven]
  | claim _ | settle | busOpen | addr _ | write _ _ => exact .refl l

theorem Lines.stayDriven_foldl_after (l : Lines) (evs : List Event) : l.StayDriven (evs.foldl Lines.after l) := by
  induction evs generalizing l with
  | nil => exact .refl l
  | cons e evs ih => exact (stayDriven_after l e).trans (ih _)

/-! ## Parts of the instructions -/

/-- Storing a blink rate or a dimming level is writing `ctl` with `initialized` as it is, and sending it is a bus write; so a property
that these carry over, like the other parts, is one that every part of an instruction carries over (42_display_controller R105, R106). -/
theorem KeptByParts.of_ctl {P : State → Prop} (hraise : ∀ info, Keeps P (Machine.raise info))
    (hpx : ∀ v s, s.fault = none → P s → P (s.withPx v)) (hseg : ∀ v s, s.fault = none → P s → P (s.withSeg v))
    (hctl : ∀ v s, v.initialized = s.ctl.initialized → s.fault = none → P s → P (s.withCtl v))
    (hsim : ∀ d v s, s.fault = none → (s.flags d).isSetup = false → P s → P (writeSim d v s))
    (hsetup : ∀ d, Keeps P (ensureSetup d))
    (hframe : ∀ s, s.LedReady → P s → P (emit (frameEvents s.cfg.csActive s.px) s))
    (hwrite : ∀ cmd payload s, s.DispReady → P s → P (busWrite cmd payload s)) : KeptByParts P where
  raise := hraise
  px := hpx
  seg := hseg
  sim := hsim
  setup := hsetup
  frame := hframe
  write cmd payload s hs _ hp := hwrite cmd payload s hs hp
  blink := keeps_setBlink hraise (fun _ s => hctl _ s rfl) (hsetup .disp) fun _ s => hwrite _ _ s
  dim := keeps_setDim hraise (fun _ s => hctl _ s rfl) (hsetup .disp) fun _ s => hwrite _ _ s

theorem busWrite_fault {cmd : Byte} {payload : List Byte} {s : State} (h : (busWrite cmd payload s).fault = none) :
    s.fault = none := by
  rw [busWrite_eq] at h
  cases hr : s.busReplyAt 0 with
  | ok => simpa [hr] using h
  | error e => simp [hr] at h

/-! ## The lifecycle invariant -/

/-- The invariant reads the flags, `initialized`, the bus, the lines, and whether a fault is recorded. -/
theorem State.LifecycleInv.of_agree {s t : State} (h : s.LifecycleInv) (hinit : t.ctl.initialized = s.ctl.initialized)
    (hled : t.led = s.led) (hdisp : t.disp = s.disp) (hlines : t.lines = s.lines) (hbus : t.bus = s.bus)
    (hfault : t.fault = none → s.fault = none) : t.LifecycleInv := by
  obtain ⟨hinit', ⟨haddr, hopen⟩, hlines'⟩ := h
  simp only [State.LifecycleInv, State.InitializedAgrees, State.BusMatchesSetup, State.LinesMatchSetup, hinit, hled, hdisp,
    hlines, hbus]
  exact ⟨hinit', ⟨haddr, fun hf => hopen (hfault hf)⟩, hlines'⟩

theorem linesMatchSetup_ready {s : State} (hs : s.led.isSetup = true) (hsim : s.led.sim = false) :
    s.LinesMatchSetup ↔ s.lines.AtRest := by
  simp only [State.LinesMatchSetup, hs, hsim, and_self, if_true, Lines.AtRest]

theorem linesMatchSetup_not_ready {s : State} (h : s.led.isSetup = false ∨ s.led.sim = true) :
    s.LinesMatchSetup ↔ s.lines = { dat := .unclaimed, clk := .unclaimed, cs := .unclaimed } := by
  rw [State.LinesMatchSetup, if_neg]
  rcases h with h | h <;> simp [h]

/-- A frame, or any bits, leave the lines at rest. -/
theorem lifecycleInv_emit {evs : List Event} (hevs : ∀ l : Lines, l.AtRest → (evs.foldl Lines.after l).AtRest) {s : State}
    (hs : s.LedReady) (h : s.LifecycleInv) : (emit evs s).LifecycleInv := by
  obtain ⟨-, hset, hsim⟩ := hs
  obtain ⟨hinit, hbus, hlines⟩ := h
  refine ⟨hinit, hbus, ?_⟩
  rw [linesMatchSetup_ready hset hsim] at hlines
  exact (linesMatchSetup_ready (s := emit evs s) hset hsim).2 (hevs _ hlines)

theorem lifecycleInv_writeSim (d : Driver) (v : Bool) {s : State} (hs : (s.flags d).isSetup = false) (h : s.LifecycleInv) :
    (writeSim d v s).LifecycleInv := by
  obtain ⟨hinit, ⟨haddr, hopen⟩, hlines⟩ := h
  cases d with
  | led =>
    rw [linesMatchSetup_not_ready (.inl hs)] at hlines
    exact ⟨hinit, ⟨haddr, hopen⟩, (linesMatchSetup_not_ready (s := writeSim .led v s) (.inl hs)).2 hlines⟩
  | disp =>
    have hset : s.disp.isSetup = false := hs
    refine ⟨hinit, ⟨haddr, fun hf => ?_⟩, hlines⟩
    simpa [writeSim, hset] using hopen hf

theorem lifecycleInv_ensureSetup_led {s : State} (hf : s.fault = none) (h : s.LifecycleInv) :
    (ensureSetup .led s).LifecycleInv := by
  obtain ⟨hs, e⟩ | ⟨hs, ⟨hsim, e⟩ | ⟨hsim, evs, claims, info, e⟩ | ⟨hsim, evs, claims, level, draws, e⟩⟩ :=
    ensureSetup_led_cases s hf <;> rw [e]
  · exact h
  · obtain ⟨hinit, hbus, hlines⟩ := h
    rw [linesMatchSetup_not_ready (.inl hs)] at hlines
    exact ⟨hinit, hbus, (linesMatchSetup_not_ready (s := markSetup .led s) (.inr hsim)).2 hlines⟩
  · exact h.of_agree rfl rfl rfl rfl rfl nofun
  · obtain ⟨hinit, hbus, -⟩ := h
    refine ⟨hinit, hbus, (linesMatchSetup_ready ?_ ?_).2 ?_⟩
    · rfl
    · exact hsim
    · exact ⟨rfl, rfl, rfl⟩

theorem lifecycleInv_ensureSetup_disp {s : State} (hf : s.fault = none) (h : s.LifecycleInv) :
    (ensureSetup .disp s).LifecycleInv := by
  obtain ⟨hs, e⟩ | ⟨hs, ⟨hsim, e⟩ | ⟨hsim, evs, replies, bus, info, hbus, e⟩ | ⟨hsim, evs, replies, e⟩⟩ :=
    ensureSetup_disp_cases s hf <;> rw [e]
  · exact h
  · obtain ⟨-, ⟨haddr, hopen⟩, hlines⟩ := h
    exact ⟨rfl, ⟨haddr, fun _ => by simpa [markSetup, hs, hsim] using hopen hf⟩, hlines⟩
  · obtain ⟨hinit, ⟨haddr, -⟩, hlines⟩ := h
    exact ⟨hinit, ⟨hbus.elim (fun hb => hb ▸ haddr) .inr, nofun⟩, hlines⟩
  · obtain ⟨-, -, hlines⟩ := h
    exact ⟨rfl, ⟨.inr rfl, fun _ => by simp [hsim]⟩, hlines⟩

theorem lifecycleInv_busWrite (cmd : Byte) (payload : List Byte) {s : State} (h : s.LifecycleInv) :
    (busWrite cmd payload s).LifecycleInv := by
  refine h.of_agree ?_ ?_ ?_ ?_ ?_ busWrite_fault <;> rw [busWrite_eq]

theorem lifecycleInv_keptByParts : KeptByParts State.LifecycleInv :=
  .of_ctl
    (hraise := fun _ _ _ h => h.of_agree rfl rfl rfl rfl rfl nofun)
    (hpx := fun _ _ _ h => h)
    (hseg := fun _ _ _ h => h)
    (hctl := fun _ _ hinit hf h => h.of_agree hinit rfl rfl rfl rfl fun _ => hf)
    (hsim := fun d v _ _ hs h => lifecycleInv_writeSim d v hs h)
    (hsetup := fun
      | .led, _, hf, h => lifecycleInv_ensureSetup_led hf h
      | .disp, _, hf, h => lifecycleInv_ensureSetup_disp hf h)
    (hframe := fun _ hs h => lifecycleInv_emit (fun _ hl => hl.after_frame _ _) hs h)
    (hwrite := fun cmd payload _ _ h => lifecycleInv_busWrite cmd payload h)

/-- Settles O13: every part of every instruction carries the invariant over. -/
theorem stepKeepsLifecycleInv : Obligations.StepKeepsLifecycleInv := fun _ _ hs hstep =>
  step_keeps (fun _ _ h => h)
    (lifecycleInv_keptByParts.allBodies fun bits _ hready h => lifecycleInv_emit (fun _ hl => hl.after_bits bits) hready h)
    hs hstep

/-! ## What no step gives up -/

/-- What holds between a state and every later one: the history is appended to, the parameters are the same, the flags of a driver that
is set up stay, and no claimed line and no bus open at 0x70 is given up (R22, R25 to R27; 43_glyph R111). -/
structure GivesNothingUp (s t : State) : Prop where
  history : s.history <+: t.history
  cfg : t.cfg = s.cfg
  led : s.led.isSetup = true → t.led = s.led
  disp : s.disp.isSetup = true → t.disp = s.disp
  lines : s.lines.StayDriven t.lines
  bus : s.bus = .opened 0x70#7 → t.bus = .opened 0x70#7

namespace GivesNothingUp

theorem trans {s t u : State} (h : GivesNothingUp s t) (h' : GivesNothingUp t u) : GivesNothingUp s u where
  history := h.history.trans h'.history
  cfg := h'.cfg.trans h.cfg
  led hs := (h'.led (by rw [h.led hs, hs])).trans (h.led hs)
  disp hs := (h'.disp (by rw [h.disp hs, hs])).trans (h.disp hs)
  lines := h.lines.trans h'.lines
  bus hb := h'.bus (h.bus hb)

theorem refl (s : State) : GivesNothingUp s s where
  history := List.prefix_rfl
  cfg := rfl
  led _ := rfl
  disp _ := rfl
  lines := .refl _
  bus hb := hb

/-- The flags of a driver that is not set up are free to change (40_lifecycle R82, R83). -/
theorem writeSim (d : Driver) (v : Bool) {s : State} (hs : (s.flags d).isSetup = false) :
    GivesNothingUp s (writeSim d v s) := by
  cases d with
  | led => exact { refl s with led := fun h => absurd (hs.symm.trans h) nofun }
  | disp => exact { refl s with disp := fun h => absurd (hs.symm.trans h) nofun }

theorem markSetup (d : Driver) {s : State} (hs : (s.flags d).isSetup = false) : GivesNothingUp s (markSetup d s) := by
  cases d with
  | led => exact { refl s with led := fun h => absurd (hs.symm.trans h) nofun }
  | disp => exact { refl s with disp := fun h => absurd (hs.symm.trans h) nofun }

theorem ensureSetup_led {s : State} (hf : s.fault = none) : GivesNothingUp s (ensureSetup .led s) := by
  obtain ⟨hs, e⟩ | ⟨hs, ⟨hsim, e⟩ | ⟨hsim, evs, claims, info, e⟩ | ⟨hsim, evs, claims, level, draws, e⟩⟩ :=
    ensureSetup_led_cases s hf <;> rw [e]
  · exact .refl s
  · exact .markSetup .led hs
  · exact { refl s with history := List.prefix_append _ _ }
  · exact { refl s with
      history := List.prefix_append _ _
      led := fun h => absurd (hs.symm.trans h) nofun
      lines := ⟨fun _ => rfl, fun _ => rfl, fun _ => rfl⟩ }

theorem ensureSetup_disp {s : State} (hf : s.fault = none) : GivesNothingUp s (ensureSetup .disp s) := by
  obtain ⟨hs, e⟩ | ⟨hs, ⟨hsim, e⟩ | ⟨hsim, evs, replies, bus, info, hbus, e⟩ | ⟨hsim, evs, replies, e⟩⟩ :=
    ensureSetup_disp_cases s hf <;> rw [e]
  · exact .refl s
  · exact .markSetup .disp hs
  · exact { refl s with
      history := List.prefix_append _ _
      bus := fun hopen => hbus.elim (fun h => h.trans hopen) id }
  · exact { refl s with
      history := List.prefix_append _ _
      disp := fun h => absurd (hs.symm.trans h) nofun
      bus := fun _ => rfl }

theorem emit (evs : List Event) (s : State) : GivesNothingUp s (emit evs s) :=
  { refl s with
    history := List.prefix_append _ _
    lines := s.lines.stayDriven_foldl_after evs }

theorem busWrite (cmd : Byte) (payload : List Byte) (s : State) : GivesNothingUp s (busWrite cmd payload s) := by
  rw [busWrite_eq]
  exact { refl s with history := List.prefix_append _ _ }

/-- Seen from a fixed earlier state, every part of an instruction carries it over. -/
theorem keptByParts (s : State) : KeptByParts (GivesNothingUp s) :=
  .of_ctl
    (hraise := fun _ _ _ h => { h with })
    (hpx := fun _ _ _ h => { h with })
    (hseg := fun _ _ _ h => { h with })
    (hctl := fun _ _ _ _ h => { h with })
    (hsim := fun d v _ _ hs h => h.trans (.writeSim d v hs))
    (hsetup := fun
      | .led, _, hf, h => h.trans (ensureSetup_led hf)
      | .disp, _, hf, h => h.trans (ensureSetup_disp hf))
    (hframe := fun _ _ h => h.trans (.emit _ _))
    (hwrite := fun _ _ _ _ h => h.trans (.busWrite _ _ _))

theorem of_step {s t : State} (h : step s = .next t) : GivesNothingUp s t :=
  step_keeps (P := GivesNothingUp s) (fun _ _ hs => { hs with })
    ((keptByParts s).allBodies fun _ _ _ hs => hs.trans (.emit _ _)) (refl s) h

end GivesNothingUp

/-- Settles O18: `GivesNothingUp` holds at a step's start and every part of every instruction carries it over. -/
theorem stepNeverGivesUp : Obligations.StepNeverGivesUp := fun _ _ hstep =>
  have ⟨hhistory, hcfg, hled, hdisp, ⟨hdat, hclk, hcs⟩, hbus⟩ := GivesNothingUp.of_step hstep
  ⟨hhistory, hcfg, fun | .led => hled | .disp => hdisp, hdat, hclk, hcs, hbus⟩

/-! ## The two drivers do not interfere -/

/-- The driver that the statements of the first leave alone. -/
def otherDriver : Driver → Driver
  | .led => .disp
  | .disp => .led

/-- What a statement of a driver can read is the same: what belongs to that driver, the parameters, and the fault
(R21, 92_eei_decisions D36). -/
structure Agree (d : Driver) (u s : State) : Prop where
  own : SameDriver d u s
  cfg : u.cfg = s.cfg
  fault : u.fault = s.fault

/-- A statement that stays inside a driver: it leaves the other driver's part alone, and what it does to its own part and to the fault
depends on nothing but these and the parameters. -/
structure Confined (d : Driver) (f : Op) : Prop where
  frame : ∀ s, SameDriver (otherDriver d) (f s) s
  alike : ∀ u s, Agree d u s → Agree d (f u) (f s)

theorem sameDriver_refl (d : Driver) (s : State) : SameDriver d s s := by
  cases d <;> exact ⟨rfl, rfl, rfl, rfl, rfl, rfl⟩

theorem sameDriver_trans {d : Driver} {s t u : State} (h : SameDriver d s t) (h' : SameDriver d t u) : SameDriver d s u := by
  cases d <;> (
    obtain ⟨h₁, h₂, h₃, h₄, h₅, h₆⟩ := h
    obtain ⟨h₁', h₂', h₃', h₄', h₅', h₆'⟩ := h'
    exact ⟨h₁.trans h₁', h₂.trans h₂', h₃.trans h₃', h₄.trans h₄', h₅.trans h₅', h₆.trans h₆'⟩)

theorem agree_refl (d : Driver) (s : State) : Agree d s s := ⟨sameDriver_refl d s, rfl, rfl⟩

theorem Agree.flags {d : Driver} {u s : State} (h : Agree d u s) : u.flags d = s.flags d := by
  obtain ⟨hown, -, -⟩ := h
  cases d with
  | led =>
    obtain ⟨-, hled, -⟩ := hown
    exact hled
  | disp =>
    obtain ⟨-, -, hdisp, -⟩ := hown
    exact hdisp

theorem Agree.px {u s : State} (h : Agree .led u s) : u.px = s.px := by
  obtain ⟨⟨hpx, -⟩, -, -⟩ := h
  exact hpx

theorem Agree.seg {u s : State} (h : Agree .disp u s) : u.seg = s.seg := by
  obtain ⟨⟨hseg, -⟩, -, -⟩ := h
  exact hseg

theorem Agree.ctl {u s : State} (h : Agree .disp u s) : u.ctl = s.ctl := by
  obtain ⟨⟨-, hctl, -⟩, -, -⟩ := h
  exact hctl

/-- Appending events of one driver is not seen among the other's. -/
theorem eventsOf_append_other {d : Driver} {evs : List Event} (hevs : ∀ e ∈ evs, e.driver ≠ d) (history : List Event) :
    eventsOf d (history ++ evs) = eventsOf d history := by
  rw [eventsOf_append, eventsOf_none hevs, List.append_nil]

theorem frameEvents_driver (active : Level) (px : Vector Pixel 7) : ∀ e ∈ frameEvents active px, e.driver = .led := by
  intro e he
  rw [frameEvents_eq] at he
  simp only [List.mem_append, List.mem_singleton] at he
  obtain (rfl | he) | rfl := he
  · rfl
  · exact bitsEvents_driver _ e he
  · rfl

namespace Confined

/-! ### Sequences and choices -/

protected theorem ignore (d : Driver) : Confined d ignore where
  frame := sameDriver_refl _
  alike _ _ h := h

protected theorem andThen {d : Driver} {f g : Op} (hf : Confined d f) (hg : Confined d g) : Confined d (andThen f g) where
  frame s := andThen_induction (P := (SameDriver (otherDriver d) · s)) (hf.frame s) fun h => sameDriver_trans (hg.frame _) h
  alike u s h := by
    have hfus := hf.alike u s h
    obtain ⟨hs, e⟩ | ⟨hs, e⟩ := andThen_cases f g s <;> rw [e]
    · rw [andThen_of_running (hfus.fault.trans hs)]
      exact hg.alike _ _ hfus
    · rw [andThen_of_faulted (by rwa [hfus.fault])]
      exact hfus

/-- A statement is confined if it does what some confined statement does, chosen by what the driver can read. -/
theorem of_chosen {d : Driver} {f : Op} (h : ∀ s, ∃ g, Confined d g ∧ ∀ u, Agree d u s → f u = g u) : Confined d f where
  frame s := by
    obtain ⟨g, hg, hfg⟩ := h s
    rw [hfg s (agree_refl d s)]
    exact hg.frame s
  alike u s hus := by
    obtain ⟨g, hg, hfg⟩ := h s
    rw [hfg s (agree_refl d s), hfg u hus]
    exact hg.alike u s hus

protected theorem ifNotSim {d : Driver} {f : Op} (hf : Confined d f) : Confined d (ifNotSim d f) := of_chosen fun s => by
  cases hsim : (s.flags d).sim with
  | true => exact ⟨_, .ignore d, fun u hu => ifNotSim_of_sim (by rw [hu.flags, hsim]) f⟩
  | false => exact ⟨f, hf, fun u hu => ifNotSim_of_not_sim (by rw [hu.flags, hsim]) f⟩

/-! ### Statements that write the state -/

protected theorem raise (d : Driver) (info : FaultInfo) : Confined d (raise info) where
  frame s := by
    cases d with
    | led => exact sameDriver_refl .disp s
    | disp => exact sameDriver_refl .led s
  alike u s h := ⟨by cases d <;> exact h.own, h.cfg, rfl⟩

theorem withPx (v : Vector Pixel 7) : Confined .led (·.withPx v) where
  frame := sameDriver_refl .disp
  alike := fun _ _ ⟨⟨_, hrest⟩, hcfg, hfault⟩ => ⟨⟨rfl, hrest⟩, hcfg, hfault⟩

theorem withSeg (v : Vector Byte 8) : Confined .disp (·.withSeg v) where
  frame := sameDriver_refl .led
  alike := fun _ _ ⟨⟨_, hrest⟩, hcfg, hfault⟩ => ⟨⟨rfl, hrest⟩, hcfg, hfault⟩

theorem withCtl (v : Ctl) : Confined .disp (·.withCtl v) where
  frame := sameDriver_refl .led
  alike := fun _ _ ⟨⟨hseg, _, hrest⟩, hcfg, hfault⟩ => ⟨⟨hseg, rfl, hrest⟩, hcfg, hfault⟩

protected theorem writeSim (d : Driver) (v : Bool) : Confined d (writeSim d v) where
  frame s := by
    cases d with
    | led => exact sameDriver_refl .disp s
    | disp => exact sameDriver_refl .led s
  alike u s h := by
    have hflags := h.flags
    obtain ⟨hown, hcfg, hfault⟩ := h
    cases d with
    | led =>
      obtain ⟨hpx, -, hrest⟩ := hown
      exact ⟨⟨hpx, congrArg ({ · with sim := v }) hflags, hrest⟩, hcfg, hfault⟩
    | disp =>
      obtain ⟨hseg, hctl, -, hrest⟩ := hown
      exact ⟨⟨hseg, hctl, congrArg ({ · with sim := v }) hflags, hrest⟩, hcfg, hfault⟩

protected theorem markSetup (d : Driver) : Confined d (markSetup d) where
  frame s := by
    cases d with
    | led => exact sameDriver_refl .disp s
    | disp => exact sameDriver_refl .led s
  alike u s h := by
    have hflags := h.flags
    obtain ⟨hown, hcfg, hfault⟩ := h
    cases d with
    | led =>
      obtain ⟨hpx, -, hrest⟩ := hown
      exact ⟨⟨hpx, congrArg ({ · with isSetup := true }) hflags, hrest⟩, hcfg, hfault⟩
    | disp =>
      obtain ⟨hseg, hctl, -, hrest⟩ := hown
      exact ⟨⟨hseg, congrArg ({ · with initialized := true }) hctl, congrArg ({ · with isSetup := true }) hflags, hrest⟩,
        hcfg, hfault⟩

/-! ### Collaborator calls -/

/-- Events of the LED driver (20_memory R36). -/
protected theorem emit {evs : List Event} (hevs : ∀ e ∈ evs, e.driver = .led) : Confined .led (emit evs) where
  frame s := ⟨rfl, rfl, rfl, rfl, rfl, eventsOf_append_other (fun e he => by simp [hevs e he]) s.history⟩
  alike := fun u s ⟨⟨hpx, hled, hlines, hclaims, hcs, hev⟩, hcfg, hfault⟩ =>
    ⟨⟨hpx, hled, by rw [emit_lines, emit_lines, hlines], hclaims, hcs, by simp [hev]⟩, hcfg, hfault⟩

protected theorem pinClaim (line : Line) : Confined .led (pinClaim line) where
  frame s := by
    rw [pinClaim_eq]
    exact ⟨rfl, rfl, rfl, rfl, rfl, eventsOf_append_other (by simp [Event.driver]) _⟩
  alike := fun u s ⟨⟨hpx, hled, hlines, hclaims, hcs, hev⟩, hcfg, hfault⟩ => by
    rw [pinClaim_eq, pinClaim_eq]
    exact ⟨⟨hpx, hled, hlines, by simp [hclaims], hcs, by simp [hev]⟩, hcfg, by simp only [State.claimAt, hclaims, hfault]⟩

protected theorem driveClaimed : Confined .led driveClaimed where
  frame := sameDriver_refl .disp
  alike := fun u s ⟨⟨hpx, hled, _, hclaims, hcs, hev⟩, hcfg, hfault⟩ =>
    ⟨⟨hpx, hled, by simp [Machine.driveClaimed, State.nextCsLevel, hcs], hclaims, by simp [Machine.driveClaimed, hcs], hev⟩,
      hcfg, hfault⟩

protected theorem busOpen : Confined .disp busOpen where
  frame s := by
    rw [busOpen_eq]
    exact ⟨rfl, rfl, rfl, rfl, rfl, eventsOf_append_other (by simp [Event.driver]) _⟩
  alike := fun u s ⟨⟨hseg, hctl, hdisp, hbus, hreplies, hev⟩, hcfg, hfault⟩ => by
    rw [busOpen_eq, busOpen_eq]
    exact ⟨⟨hseg, hctl, hdisp, hbus, by simp [hreplies], by simp [hev]⟩, hcfg,
      by simp only [State.busReplyAt, hreplies, hfault]⟩

protected theorem busSetAddress (a : BitVec 7) : Confined .disp (busSetAddress a) where
  frame s := by
    rw [busSetAddress_eq]
    exact ⟨rfl, rfl, rfl, rfl, rfl, eventsOf_append_other (by simp [Event.driver]) _⟩
  alike := fun u s ⟨⟨hseg, hctl, hdisp, _, hreplies, hev⟩, hcfg, hfault⟩ => by
    rw [busSetAddress_eq, busSetAddress_eq]
    exact ⟨⟨hseg, hctl, hdisp, rfl, hreplies, by simp [hev]⟩, hcfg, hfault⟩

protected theorem busWrite (cmd : Byte) (payload : List Byte) : Confined .disp (busWrite cmd payload) where
  frame s := by
    rw [busWrite_eq]
    exact ⟨rfl, rfl, rfl, rfl, rfl, eventsOf_append_other (by simp [Event.driver]) _⟩
  alike := fun u s ⟨⟨hseg, hctl, hdisp, hbus, hreplies, hev⟩, hcfg, hfault⟩ => by
    rw [busWrite_eq, busWrite_eq]
    exact ⟨⟨hseg, hctl, hdisp, hbus, by simp [hreplies], by simp [hev]⟩, hcfg,
      by simp only [State.busReplyAt, hreplies, hfault]⟩

/-- A command byte that the parameters and the controller's settings give (42_display_controller R103, R105, R106). -/
theorem sendChosen (cmd : Config → Ctl → Byte) : Confined .disp fun s => sendCmd (cmd s.cfg s.ctl) s :=
  of_chosen fun s => ⟨_, .busWrite (cmd s.cfg s.ctl) [], fun u hu => by rw [hu.cfg, hu.ctl, sendCmd]⟩

/-- The buffer after command byte 0 (42_display_controller R107). -/
theorem flush : Confined .disp fun s => busWrite cmdData s.seg.toList s :=
  of_chosen fun s => ⟨_, .busWrite cmdData s.seg.toList, fun u hu => by rw [hu.seg]⟩

/-! ### Setting up -/

protected theorem acquire : (d : Driver) → Confined d (acquire d)
  | .led => .andThen (.pinClaim .dat) <| .andThen (.pinClaim .clk) <| .andThen (.pinClaim .cs) <|
      .andThen .driveClaimed <| .ignore .led
  | .disp => .andThen .busOpen <| .andThen (.busSetAddress 0x70#7) <| .andThen (sendChosen fun cfg _ => cfg.cmdOscOn) <|
      .andThen (sendChosen fun cfg ctl => blinkCmd cfg ctl.blink) <| .andThen (sendChosen fun cfg ctl => dimCmd cfg ctl.br) <|
      .ignore .disp

protected theorem ensureSetup (d : Driver) : Confined d (ensureSetup d) := of_chosen fun s => by
  cases hset : (s.flags d).isSetup with
  | true => exact ⟨_, .ignore d, fun u hu => ensureSetup_of_setup (by rw [hu.flags, hset])⟩
  | false =>
    exact ⟨_, .andThen (.ifNotSim (.acquire d)) (.markSetup d), fun u hu => by simp [Machine.ensureSetup, hu.flags, hset]⟩

protected theorem onWire {d : Driver} {f : Op} (hf : Confined d f) : Confined d (onWire d f) :=
  .andThen (.ensureSetup d) (.ifNotSim hf)

protected theorem changeSim (d : Driver) (v : Bool) : Confined d (changeSim d v) := of_chosen fun s => by
  cases hc : (s.flags d).isSetup && v != (s.flags d).sim with
  | true => exact ⟨_, .raise d _, fun u hu => by rw [Machine.changeSim, hu.flags, hc, if_pos rfl]⟩
  | false => exact ⟨_, .writeSim d v, fun u hu => by rw [Machine.changeSim, hu.flags, hc, if_neg nofun]⟩

/-! ### The LED chain -/

theorem updatePx (f : Vector Pixel 7 → Vector Pixel 7) : Confined .led fun s => s.withPx (f s.px) :=
  of_chosen fun s => ⟨_, withPx (f s.px), fun u hu => by rw [hu.px]⟩

protected theorem writePixel (index : Nat) (p : Pixel) : Confined .led (writePixel index p) := by
  unfold Machine.writePixel
  split
  · exact updatePx (·.set index p)
  · exact .ignore .led

protected theorem withLevel (q : Brightness) {op : BitVec 5 → Op} (hop : ∀ level, Confined .led (op level)) :
    Confined .led (withLevel q op) := of_chosen fun s => by
  cases hq : legalBright q with
  | true => exact ⟨_, hop (quant s.cfg.quant q), fun u hu => by rw [Machine.withLevel, hq, if_pos rfl, hu.cfg]⟩
  | false => exact ⟨_, .raise .led _, fun u _ => by rw [Machine.withLevel, hq, if_neg nofun]⟩

protected theorem clearColours : Confined .led clearColours := updatePx _

protected theorem showFrame : Confined .led showFrame :=
  .onWire <| of_chosen fun s => ⟨_, .emit (frameEvents_driver s.cfg.csActive s.px), fun u hu => by rw [hu.cfg, hu.px]⟩

theorem bitsOnWire (bits : List Bool) : Confined .led (onWire .led (emit (bitsEvents bits))) :=
  .onWire (.emit (bitsEvents_driver bits))

/-! ### The display controller and the glyph layer -/

theorem updateCtl (f : Ctl → Ctl) : Confined .disp fun s => s.withCtl (f s.ctl) :=
  of_chosen fun s => ⟨_, withCtl (f s.ctl), fun u hu => by rw [hu.ctl]⟩

theorem updateSeg (f : Vector Byte 8 → Vector Byte 8) : Confined .disp fun s => s.withSeg (f s.seg) :=
  of_chosen fun s => ⟨_, withSeg (f s.seg), fun u hu => by rw [hu.seg]⟩

protected theorem storeAndSetup {store : Op} (hstore : Confined .disp store) : Confined .disp (storeAndSetup store) :=
  of_chosen fun s => by
    cases ho : s.cfg.ctlOrder with
    | storeFirst => exact ⟨_, hstore.andThen (.ensureSetup .disp), fun u hu => by simp only [Machine.storeAndSetup, hu.cfg, ho]⟩
    | setupFirst =>
      exact ⟨_, .andThen (.ensureSetup .disp) hstore, fun u hu => by simp only [Machine.storeAndSetup, hu.cfg, ho]⟩

protected theorem setBlink (code : Byte) : Confined .disp (setBlink code) := of_chosen fun s => by
  cases hc : blinkDecode s.cfg code with
  | none => exact ⟨_, .raise .disp (.blinkUnsupported code), fun u hu => by simp only [Machine.setBlink, hu.cfg, hc]⟩
  | some f =>
    exact ⟨_, .andThen (.storeAndSetup (updateCtl ({ · with blink := f }))) (.ifNotSim (sendChosen fun cfg _ => blinkCmd cfg f)),
      fun u hu => by simp only [Machine.setBlink, hu.cfg, hc]; rfl⟩

protected theorem setDim (level : Byte) : Confined .disp (setDim level) := by
  unfold Machine.setDim
  split
  · exact .raise .disp _
  · exact .andThen (.storeAndSetup (updateCtl ({ · with br := level.extractLsb' 0 4 })))
      (.ifNotSim (sendChosen fun cfg _ => dimCmd cfg (level.extractLsb' 0 4)))

protected theorem setDigitRaw (pos : Int) (mask : BitVec 16) : Confined .disp (setDigitRaw pos mask) := by
  unfold Machine.setDigitRaw
  split
  · exact .ignore .disp
  · exact updateSeg (storeMask · _ mask)

protected theorem setDecimal (pos : Int) (on : Bool) : Confined .disp (setDecimal pos on) := by
  unfold Machine.setDecimal
  split
  · exact .ignore .disp
  · exact updateSeg (storeDecimal · _ on)

protected theorem setDigit (pos : Int) (ch : Char) (dp : Bool) : Confined .disp (setDigit pos ch dp) := of_chosen fun s => by
  cases hm : lookup s.cfg ch with
  | none => exact ⟨_, .raise .disp (.glyphNotFound ch), fun u hu => by simp only [Machine.setDigit, hu.cfg, hm]⟩
  | some m =>
    have hpoint : Confined .disp (if dp then setDecimal pos true else ignore) := by
      split
      · exact .setDecimal pos true
      · exact .ignore .disp
    exact ⟨_, .andThen (.setDigitRaw pos m) hpoint, fun u hu => by simp only [Machine.setDigit, hu.cfg, hm]⟩

protected theorem printFrom (start : Int) (text : List Char) : Confined .disp (printFrom start text) := by
  induction text generalizing start with
  | nil => exact .ignore .disp
  | cons ch rest ih => exact .andThen (.setDigit start ch false) (ih (start + 1))

/-! ### Instructions -/

/-- Every instruction stays inside its driver (R21, R34; 92_eei_decisions D36). -/
protected theorem body (i : Instr) : Confined i.driver (body i) := by
  cases i with
  | ledSetup => exact .ensureSetup .led
  | dispSetup => exact .ensureSetup .disp
  | ledSetSimulation v => exact .changeSim .led v
  | dispSetSimulation v => exact .changeSim .disp v
  | ledSetPixel index r g b q => exact .withLevel q fun level => .writePixel index _
  | ledSetAll r g b q => exact .withLevel q fun level => updatePx (mapPixels fun _ => { r := r, g := g, b := b, br := level })
  | ledSetBrightness q => exact .withLevel q fun level => updatePx (mapPixels ({ · with br := level }))
  | ledClear => exact .clearColours
  | ledShow => exact .showFrame
  | ledExit => exact .andThen .clearColours .showFrame
  | dispSetBlink code => exact .setBlink code
  | dispSetBrightness level => exact .setDim level
  | dispWriteDisplay => exact .onWire flush
  | dispSetDigitRaw pos mask => exact .setDigitRaw pos mask
  | dispSetDecimal pos on => exact .setDecimal pos on
  | dispSetDigit pos ch dp => exact .setDigit pos ch dp
  | dispPrintStr text jr => exact .printFrom _ text
  | ledSof => exact bitsOnWire (List.replicate 32 false)
  | ledPixelWord br b g r =>
    have hbits := bitsOnWire (bitsMsb (pixelWord br b g r))
    rwa [← pixelWordEvents_eq] at hbits
  | ledEof => exact bitsOnWire (List.replicate 36 false)
  | i2cData payload => exact .onWire flush
  | i2cOscOn => exact .onWire (sendChosen fun cfg _ => cfg.cmdOscOn)
  | i2cBlink f => exact .onWire (sendChosen fun cfg _ => blinkCmd cfg f)
  | i2cDim level => exact .onWire (sendChosen fun cfg _ => dimCmd cfg level)

end Confined

/-- Settles O57: the body of every instruction is confined to its driver, and whether it is refused depends on the parameters alone. -/
theorem driversDoNotInterfere : Obligations.DriversDoNotInterfere := by
  intro i s t hst
  obtain ⟨hf, hr, rfl⟩ := exec_eq_next.1 hst
  have hi := Confined.body i
  refine ⟨fun hd => ?_, fun hd => ?_, fun u hown hcfg hfault => ?_⟩
  · rw [hd] at hi
    exact hi.frame s
  · rw [hd] at hi
    exact hi.frame s
  · obtain ⟨hown', -, hfault'⟩ := hi.alike u s ⟨hown, hcfg, hfault⟩
    exact ⟨_, exec_of_running (hfault.trans hf) (by rwa [hcfg]), hown', hfault'⟩

end Sys2Proof.Machine
end

section
/-! The encoding statements (spec/30_encoding.md): the selector map (R53 to R56), the units of the LED frame (R59 to R63), the bus
commands (R65 to R69), and that the decoder and the encoder undo each other. -/

namespace Sys2Proof

open Machine

/-! ## Bits -/

theorem bitsMsb_injective {n : Nat} {v w : BitVec n} (h : bitsMsb v = bitsMsb w) : v = w :=
  BitVec.eq_of_toNat_eq (by rw [← natOfBits_bitsMsb, h, natOfBits_bitsMsb])

/-- Every list of bits is the bits of a word of its length. -/
theorem exists_bitsMsb_eq (bits : List Bool) : ∃ w : BitVec bits.length, bitsMsb w = bits := by
  suffices ∀ n, bits.length = n → ∃ w : BitVec n, bitsMsb w = bits from this _ rfl
  induction bits using List.reverseRecOn with
  | nil => rintro _ rfl; exact ⟨0#0, rfl⟩
  | append_singleton bits b ih =>
    rintro _ rfl
    obtain ⟨w, hw⟩ := ih _ rfl
    rw [List.length_append, List.length_singleton]
    refine ⟨w ++ BitVec.ofBool b, ?_⟩
    rw [bitsMsb_append, hw]
    cases b <;> rfl

theorem ofNat_natOfBits_bitsMsb {n : Nat} (w : BitVec n) : BitVec.ofNat n (natOfBits (bitsMsb w)) = w := by
  rw [natOfBits_bitsMsb, BitVec.ofNat_toNat, BitVec.setWidth_eq]

/-! ## The pixel word -/

theorem ctrlByte_eq_append (br : BitVec 5) : ctrlByte br = 0b111#3 ++ br := by
  revert br
  decide

theorem pixelWord_eq_append (br : BitVec 5) (b g r : Byte) : pixelWord br b g r = ctrlByte br ++ b ++ g ++ r := by
  rw [ctrlByte_eq_append, pixelWord]

theorem bitsMsb_pixelWord (br : BitVec 5) (b g r : Byte) :
    bitsMsb (pixelWord br b g r) = bitsMsb (ctrlByte br) ++ bitsMsb b ++ bitsMsb g ++ bitsMsb r := by
  simp only [pixelWord_eq_append, bitsMsb_append]

theorem bitsMsb_ctrlByte_take (br : BitVec 5) : (bitsMsb (ctrlByte br)).take 3 = [true, true, true] := by
  rw [ctrlByte_eq_append, bitsMsb_append]
  rfl

/-- Widened, a concatenation is the high part shifted past the low one, or-ed with it. -/
theorem setWidth_append_eq_or {m n : Nat} (k : Nat) (x : BitVec m) (y : BitVec n) :
    (x ++ y).setWidth k = (x.setWidth k <<< n) ||| y.setWidth k := by
  apply BitVec.eq_of_getLsbD_eq
  intro i hi
  simp only [BitVec.getLsbD_setWidth, BitVec.getLsbD_append, BitVec.getLsbD_or, BitVec.getLsbD_shiftLeft, hi]
  by_cases hn : i < n
  · simp [hn]
  · simp [hn, BitVec.getLsbD_of_ge y i (by omega), show i - n < k by omega]

/-- The word as the rule's formula (R61). -/
theorem pixelWord_eq_or (br : BitVec 5) (b g r : Byte) :
    pixelWord br b g r =
      ((ctrlByte br).setWidth 32 <<< 24) ||| (b.setWidth 32 <<< 16) ||| (g.setWidth 32 <<< 8) ||| r.setWidth 32 := by
  rw [← BitVec.setWidth_eq (pixelWord br b g r), pixelWord_eq_append]
  simp only [setWidth_append_eq_or, BitVec.shiftLeft_or_distrib, ← BitVec.shiftLeft_add]

/-- The fields of the control byte and its range (R62). -/
theorem ctrlByte_fields (br : BitVec 5) :
    (ctrlByte br).extractLsb' 5 3 = 0b111#3 ∧ (ctrlByte br).extractLsb' 0 5 = br ∧
      0xE0 ≤ (ctrlByte br).toNat ∧ (ctrlByte br).toNat ≤ 0xFF := by
  revert br
  decide

/-- Settles O6: the control byte is `111` in front of the level, and the word is its four bytes one after another. -/
theorem pixelWordLayout : Obligations.PixelWordLayout := fun br b g r =>
  ⟨pixelWord_eq_or br b g r, bitsMsb_pixelWord br b g r, rfl, ctrlByte_fields br⟩

/-- The fields that the decoder reads from a pixel word (R61). -/
theorem pixelWord_fields (br : BitVec 5) (b g r : Byte) :
    (pixelWord br b g r).extractLsb' 24 5 = br ∧ (pixelWord br b g r).extractLsb' 16 8 = b ∧
      (pixelWord br b g r).extractLsb' 8 8 = g ∧ (pixelWord br b g r).extractLsb' 0 8 = r := by
  rw [show pixelWord br b g r = (0b111#3 ++ br ++ b ++ g ++ r : BitVec (3 + 5 + 8 + 8 + 8)) from rfl]
  refine ⟨?_, ?_, ?_, ?_⟩ <;>
    simp only [BitVec.extractLsb'_append_eq_of_le, Nat.reduceLeDiff, Nat.reduceSub, BitVec.extractLsb'_append_eq_right]

/-- A word is its upper three bits in front of the fields that the decoder reads. -/
theorem word_eq_fields (w : BitVec 32) :
    w.extractLsb' 29 3 ++ w.extractLsb' 24 5 ++ w.extractLsb' 16 8 ++ w.extractLsb' 8 8 ++ w.extractLsb' 0 8 = w := by
  rw [BitVec.extractLsb'_append_extractLsb'_eq_extractLsb' (rfl : 29 = 24 + 5),
    BitVec.extractLsb'_append_extractLsb'_eq_extractLsb' (rfl : 24 = 16 + 8),
    BitVec.extractLsb'_append_extractLsb'_eq_extractLsb' (rfl : 16 = 8 + 8),
    BitVec.extractLsb'_append_extractLsb'_eq_extractLsb' (rfl : 8 = 0 + 8), BitVec.extractLsb'_eq_self]

/-- A word whose first three bits are ones is the pixel word of the fields that the decoder reads (R61). -/
theorem pixelWord_of_word {w : BitVec 32} (h : (bitsMsb w).take 3 = [true, true, true]) :
    pixelWord (w.extractLsb' 24 5) (w.extractLsb' 16 8) (w.extractLsb' 8 8) (w.extractLsb' 0 8) = w := by
  have htop : w.extractLsb' 29 3 = 0b111#3 := by
    apply bitsMsb_injective
    rw [← word_eq_fields w] at h
    simp only [bitsMsb_append, List.append_assoc] at h
    rwa [List.take_left' (bitsMsb_length _)] at h
  rw [pixelWord, ← htop, word_eq_fields]

theorem bitsMsb_pixelWord_take (br : BitVec 5) (b g r : Byte) :
    (bitsMsb (pixelWord br b g r)).take 3 = [true, true, true] := by
  rw [bitsMsb_pixelWord, List.append_assoc, List.append_assoc, List.take_append_of_le_length (by simp), bitsMsb_ctrlByte_take]

/-! ## The units of the LED frame -/

theorem decodeLed_sof : decodeLed (List.replicate 32 false) = .ok .ledSof := if_pos rfl

theorem decodeLed_eof : decodeLed (List.replicate 36 false) = .ok .ledEof := by
  simp [decodeLed]

/-- A unit of 32 bits that begins with ones is a pixel word with the word's fields (R61). -/
theorem decodeLed_word {w : BitVec 32} (h : (bitsMsb w).take 3 = [true, true, true]) :
    decodeLed (bitsMsb w) =
      .ok (.ledPixelWord (w.extractLsb' 24 5) (w.extractLsb' 16 8) (w.extractLsb' 8 8) (w.extractLsb' 0 8)) := by
  have hsof : bitsMsb w ≠ List.replicate 32 false := fun e => by simp [e] at h
  have heof : bitsMsb w ≠ List.replicate 36 false := fun e => by simp [e] at h
  rw [decodeLed, if_neg hsof, if_neg heof, if_pos ⟨bitsMsb_length w, h⟩, ofNat_natOfBits_bitsMsb]

theorem decodeLed_pixelWord (br : BitVec 5) (b g r : Byte) :
    decodeLed (bitsMsb (pixelWord br b g r)) = .ok (.ledPixelWord br b g r) := by
  obtain ⟨hbr, hb, hg, hr⟩ := pixelWord_fields br b g r
  rw [decodeLed_word (bitsMsb_pixelWord_take br b g r), hbr, hb, hg, hr]

/-- What the decoder answers to a unit of the LED frame: the three formats, and a rejection for the rest. -/
theorem decodeLed_eq_ok {bits : List Bool} {i : Instr} (h : decodeLed bits = .ok i) :
    (bits = List.replicate 32 false ∧ i = .ledSof) ∨ (bits = List.replicate 36 false ∧ i = .ledEof) ∨
      ∃ br b g r, bits = bitsMsb (pixelWord br b g r) ∧ i = .ledPixelWord br b g r := by
  by_cases hsof : bits = List.replicate 32 false
  · subst hsof
    exact .inl ⟨rfl, Except.ok.inj (h.symm.trans decodeLed_sof)⟩
  by_cases heof : bits = List.replicate 36 false
  · subst heof
    exact .inr (.inl ⟨rfl, Except.ok.inj (h.symm.trans decodeLed_eof)⟩)
  by_cases hword : bits.length = 32 ∧ bits.take 3 = [true, true, true]
  · obtain ⟨hlen, htake⟩ := hword
    obtain ⟨w, rfl⟩ : ∃ w : BitVec 32, bitsMsb w = bits := hlen ▸ exists_bitsMsb_eq bits
    rw [decodeLed_word htake] at h
    exact .inr (.inr ⟨_, _, _, _, congrArg bitsMsb (pixelWord_of_word htake).symm, (Except.ok.inj h).symm⟩)
  · rw [decodeLed, if_neg hsof, if_neg heof, if_neg hword] at h
    cases h

/-! ## The selector map -/

theorem guardBright_of_wf {q : Brightness} (h : q.wf = true) (i : Instr) : guardBright q i = some i := if_pos h

theorem guardBright_eq_some {q : Brightness} {i j : Instr} (h : guardBright q i = some j) : q.wf = true ∧ i = j := by
  unfold guardBright at h
  split at h
  · exact ⟨‹_›, Option.some.inj h⟩
  · cases h

theorem decodeHost_of_no_row {selector : Byte} (h : hostRow? selector = none) (operands : List Operand) :
    decodeHost selector operands = .error (.unknownSelector selector) := by
  simp only [decodeHost, h]

theorem decodeHost_of_build {selector : Byte} {row : HostRow} {operands : List Operand} {i : Instr}
    (hrow : hostRow? selector = some row) (hi : row.build operands = some i) : decodeHost selector operands = .ok i := by
  simp only [decodeHost, hrow, hi]

theorem decodeHost_of_no_build {selector : Byte} {row : HostRow} {operands : List Operand}
    (hrow : hostRow? selector = some row) (hi : row.build operands = none) :
    decodeHost selector operands = .error (.wrongOperands selector) := by
  simp only [decodeHost, hrow, hi]

/-- The row of a selector is a row of the map, and the selector is the row's. -/
theorem hostRow?_eq_some {selector : Byte} {row : HostRow} (h : hostRow? selector = some row) :
    row ∈ hostRows ∧ row.selector = selector :=
  ⟨List.mem_of_find?_eq_some h, by simpa using List.find?_some h⟩

theorem hostRow?_eq_none {selector : Byte} (h : selector ∉ hostRows.map HostRow.selector) : hostRow? selector = none := by
  rw [hostRow?, List.find?_eq_none]
  intro row hrow
  rw [beq_iff_eq]
  exact fun e => h (e ▸ List.mem_map_of_mem hrow)

/-- A well-formed host operation decodes from its encoding, under every choice of the parameters (R54). -/
theorem decode_encode_host (cfg : Config) {i : Instr} (hi : i.isHost = true) (hw : i.wf = true) :
    decode cfg (encode cfg i) = .ok i := by
  cases i with
  | ledSof | ledPixelWord _ _ _ _ | ledEof | i2cData _ | i2cOscOn | i2cBlink _ | i2cDim _ => cases hi
  | ledSetPixel _ _ _ _ q | ledSetAll _ _ _ q | ledSetBrightness q =>
    have hq : q.wf = true := hw
    simp only [encode, decode]
    exact decodeHost_of_build rfl (guardBright_of_wf hq _)
  | _ => rfl

/-- Settles O1: each row is the decoding of an encoded operation, and a selector of no row finds none. -/
theorem selectorMapIsExact : Obligations.SelectorMapIsExact := by
  refine ⟨fun cfg => ?_, fun cfg selector operands h => decodeHost_of_no_row (hostRow?_eq_none h) operands⟩
  have row (i : Instr) (hi : i.isHost = true) (hw : i.wf = true) := decode_encode_host cfg hi hw
  exact ⟨row .ledSetup rfl rfl, fun v => row (.ledSetSimulation v) rfl rfl,
    fun index r g b q => row (.ledSetPixel index r g b q) rfl, fun r g b q => row (.ledSetAll r g b q) rfl,
    fun q => row (.ledSetBrightness q) rfl, row .ledClear rfl rfl, row .ledShow rfl rfl, row .ledExit rfl rfl,
    row .dispSetup rfl rfl, fun v => row (.dispSetSimulation v) rfl rfl, fun code => row (.dispSetBlink code) rfl rfl,
    fun level => row (.dispSetBrightness level) rfl rfl, row .dispWriteDisplay rfl rfl,
    fun pos mask => row (.dispSetDigitRaw pos mask) rfl rfl, fun pos on => row (.dispSetDecimal pos on) rfl rfl,
    fun pos ch dp => row (.dispSetDigit pos ch dp) rfl rfl, fun text jr => row (.dispPrintStr text jr) rfl rfl⟩

/-- What a row of the selector map builds from a record is a well-formed host operation, encoded as the row's selector and that
record. -/
def HostRow.Sound (row : HostRow) : Prop :=
  ∀ operands i, row.build operands = some i →
    i.isHost = true ∧ i.wf = true ∧ ∀ cfg, encode cfg i = .host row.selector operands

theorem hostRows_sound : ∀ row ∈ hostRows, row.Sound := by
  simp only [hostRows, ledRows, dispRows, List.cons_append, List.nil_append, List.forall_mem_cons]
  refine ⟨?_, ?_, ?_, ?_, ?_, ?_, ?_, ?_, ?_, ?_, ?_, ?_, ?_, ?_, ?_, ?_, ?_, List.forall_mem_nil _⟩
  case refine_3 | refine_4 | refine_5 => -- the rows with a brightness
    intro operands i h
    dsimp only at h
    split at h
    · obtain ⟨hq, rfl⟩ := guardBright_eq_some h
      exact ⟨rfl, hq, fun _ => rfl⟩
    · cases h
  all_goals
    intro operands i h
    dsimp only at h
    split at h <;> cases h
    exact ⟨rfl, rfl, fun _ => rfl⟩

/-- Every row has a record: the one of zeros. -/
theorem hostRows_build_zero : ∀ row ∈ hostRows, (row.build (row.kinds.map OperandKind.zero)).isSome = true := by
  decide

theorem decodeHost_eq_ok {selector : Byte} {operands : List Operand} {i : Instr} (h : decodeHost selector operands = .ok i) :
    i.isHost = true ∧ i.wf = true ∧ ∀ cfg, encode cfg i = .host selector operands := by
  cases hrow : hostRow? selector with
  | none =>
    rw [decodeHost_of_no_row hrow] at h
    cases h
  | some row =>
    obtain ⟨hmem, rfl⟩ := hostRow?_eq_some hrow
    cases hbuild : row.build operands with
    | none =>
      rw [decodeHost_of_no_build hrow hbuild] at h
      cases h
    | some j =>
      rw [decodeHost_of_build hrow hbuild] at h
      cases h
      exact hostRows_sound row hmem operands i hbuild

theorem encode_isHost (cfg : Config) (i : Instr) : (encode cfg i).isHost = i.isHost := by
  cases i <;> rfl

/-- The encoding of a well-formed instruction, if it is a host request, decodes to that instruction. -/
theorem decodeHost_of_encode {cfg : Config} {i : Instr} {selector : Byte} {operands : List Operand} (hw : i.wf = true)
    (h : encode cfg i = .host selector operands) : decodeHost selector operands = .ok i := by
  have hi : i.isHost = true := by rw [← encode_isHost cfg i, h, Request.isHost]
  have hd := decode_encode_host cfg hi hw
  rwa [h] at hd

/-- Settles O2: a selector has a row or none, and the row builds an operation from the record or none. -/
theorem hostDecodingIsTotal : Obligations.HostDecodingIsTotal := by
  refine ⟨fun s selector operands rest e hf hr hd => step_of_undecodable hf hr hd, fun cfg selector operands => ?_⟩
  have notEncoded {e : DecodeError} (any : List Operand) (he : decodeHost selector any = .error e) (i : Instr)
      (hw : i.wf = true) : encode cfg i ≠ .host selector any := fun h => nomatch he.symm.trans (decodeHost_of_encode hw h)
  cases hrow : hostRow? selector with
  | none =>
    exact .inr (.inl ⟨fun i any => notEncoded any (decodeHost_of_no_row hrow any) i, decodeHost_of_no_row hrow operands⟩)
  | some row =>
    cases hbuild : row.build operands with
    | some i =>
      have hd := decodeHost_of_build hrow hbuild
      obtain ⟨hhost, hw, henc⟩ := decodeHost_eq_ok hd
      exact .inl ⟨i, hhost, hw, henc cfg, hd⟩
    | none =>
      have hd := decodeHost_of_no_build hrow hbuild
      obtain ⟨hmem, -⟩ := hostRow?_eq_some hrow
      obtain ⟨i, hi⟩ := Option.isSome_iff_exists.1 (hostRows_build_zero row hmem)
      obtain ⟨-, hw, henc⟩ := decodeHost_eq_ok (decodeHost_of_build hrow hi)
      exact .inr (.inr ⟨⟨i, _, hw, henc cfg⟩, notEncoded operands hd, hd⟩)

/-! ## The bus commands -/

/-- A byte that is found to be a blink command is its frequency's (R68). -/
theorem blinkOfCmd_eq_some {cfg : Config} {cmd : Byte} {f : BlinkFreq} (h : blinkOfCmd cfg cmd = some f) :
    blinkCmd cfg f = cmd := by
  simpa using List.find?_some h

theorem mem_blinkFreqs (f : BlinkFreq) : f ∈ [BlinkFreq.off, .hz2, .hz1, .hz05] := by
  cases f <;> decide

theorem isBlinkCmd_blinkCmd (cfg : Config) (f : BlinkFreq) : isBlinkCmd cfg (blinkCmd cfg f) = true := by
  rw [isBlinkCmd, blinkOfCmd, List.find?_isSome]
  exact ⟨f, mem_blinkFreqs f, beq_self_eq_true _⟩

/-- Where the blink commands differ, each tells its frequency (R68, R76). -/
theorem blinkOfCmd_blinkCmd {cfg : Config} (h : cfg.CommandsDistinct) (f : BlinkFreq) :
    blinkOfCmd cfg (blinkCmd cfg f) = some f := by
  obtain ⟨hnodup, -, -⟩ := h
  have hnodup' : ([BlinkFreq.off, .hz2, .hz1, .hz05].map (blinkCmd cfg)).Nodup := hnodup.of_cons.of_cons
  obtain ⟨g, hg⟩ := Option.isSome_iff_exists.1 (isBlinkCmd_blinkCmd cfg f)
  rw [hg, List.inj_on_of_nodup_map hnodup' (mem_blinkFreqs g) (mem_blinkFreqs f) (blinkOfCmd_eq_some hg)]

/-- The oscillator command is no blink command (R76). -/
theorem cmdOscOn_ne_blinkCmd {cfg : Config} (h : cfg.CommandsDistinct) (f : BlinkFreq) : blinkCmd cfg f ≠ cfg.cmdOscOn := by
  obtain ⟨hnodup, -, -⟩ := h
  have hosc := (List.nodup_cons.1 hnodup.of_cons).1
  exact fun e => hosc (e ▸ List.mem_map_of_mem (f := blinkCmd cfg) (mem_blinkFreqs f))

/-- The upper four bits of a dimming command are the base's, and the lower four are the level (R69). -/
theorem dimCmd_fields {cfg : Config} (h : cfg.cmdDimBase &&& 0x0F#8 = 0#8) (level : BitVec 4) :
    dimCmd cfg level &&& 0xF0#8 = cfg.cmdDimBase ∧ (dimCmd cfg level).extractLsb' 0 4 = level := by
  have hbase : ∀ base : Byte, base &&& 0x0F#8 = 0#8 → base &&& 0xF0#8 = base ∧ base.extractLsb' 0 4 = 0#4 := by decide
  have hlevel : ∀ l : BitVec 4, l.setWidth 8 &&& 0xF0#8 = 0#8 ∧ (l.setWidth 8).extractLsb' 0 4 = l := by decide
  obtain ⟨hb, hb'⟩ := hbase _ h
  obtain ⟨hl, hl'⟩ := hlevel level
  rw [dimCmd, BitVec.and_or_distrib_right, BitVec.extractLsb'_or, hb, hb', hl, hl', BitVec.or_zero, BitVec.zero_or]
  exact ⟨rfl, rfl⟩

/-- A byte with the base's upper four bits is the dimming command of its lower four (R69). -/
theorem dimCmd_of_isDim {cfg : Config} {cmd : Byte} (h : cmd &&& 0xF0#8 = cfg.cmdDimBase) :
    dimCmd cfg (cmd.extractLsb' 0 4) = cmd := by
  have hbyte : ∀ c : Byte, (c &&& 0xF0#8) ||| (c.extractLsb' 0 4).setWidth 8 = c := by decide
  rw [dimCmd, ← h, hbyte]

/-- A dimming command is neither the oscillator command nor a blink command (R76). -/
theorem dimCmd_ne {cfg : Config} (h : cfg.CommandsDistinct) (level : BitVec 4) :
    dimCmd cfg level ≠ cfg.cmdOscOn ∧ blinkOfCmd cfg (dimCmd cfg level) = none := by
  obtain ⟨-, hbase, hother⟩ := h
  have hne : ∀ c ∈ _, dimCmd cfg level ≠ c := fun c hc e => hother c hc (e ▸ (dimCmd_fields hbase level).1)
  refine ⟨hne _ (.tail _ (.head _)), List.find?_eq_none.2 fun f hf => ?_⟩
  rw [beq_iff_eq]
  exact (hne _ (.tail _ (.tail _ (List.mem_map_of_mem hf)))).symm

theorem decodeI2c_cmdData (cfg : Config) (payload : Vector Byte 8) :
    decodeI2c cfg cmdData payload.toList = .ok (.i2cData payload) := by
  obtain ⟨⟨l⟩, h⟩ := payload
  match l, h with
  | [_, _, _, _, _, _, _, _], _ => rfl

theorem decodeI2c_blinkCmd {cfg : Config} (h : cfg.CommandsDistinct) (f : BlinkFreq) :
    decodeI2c cfg (blinkCmd cfg f) [] = .ok (.i2cBlink f) := by
  simp only [decodeI2c.eq_def, cmdOscOn_ne_blinkCmd h f, blinkOfCmd_blinkCmd h f, if_false]

theorem decodeI2c_dimCmd {cfg : Config} (h : cfg.CommandsDistinct) (level : BitVec 4) :
    decodeI2c cfg (dimCmd cfg level) [] = .ok (.i2cDim level) := by
  obtain ⟨hosc, hblink⟩ := dimCmd_ne h level
  obtain ⟨-, hbase, -⟩ := h
  obtain ⟨hdim, hlevel⟩ := dimCmd_fields hbase level
  simp only [decodeI2c.eq_def, hosc, hblink, hdim, hlevel, if_false, if_true]

/-- What the decoder answers to a bus write: the formats, and a rejection for the rest (R65 to R69). -/
theorem decodeI2c_eq_ok {cfg : Config} {cmd : Byte} {payload : List Byte} {i : Instr} (h : decodeI2c cfg cmd payload = .ok i) :
    i.wf = true ∧ encode cfg i = .i2c cmd payload := by
  match payload, h with
  | [a0, a1, a2, a3, a4, a5, a6, a7], h =>
    rw [decodeI2c.eq_def] at h
    dsimp only at h
    split at h <;> cases h
    rename_i hdata
    exact ⟨rfl, by rw [hdata]; rfl⟩
  | [], h =>
    rw [decodeI2c.eq_def] at h
    dsimp only at h
    split at h
    · rename_i hosc
      cases h
      exact ⟨rfl, by rw [hosc]; rfl⟩
    · split at h
      · rename_i hblink
        cases h
        exact ⟨rfl, by rw [encode, blinkOfCmd_eq_some hblink]⟩
      · split at h <;> cases h
        rename_i hdim
        exact ⟨rfl, by rw [encode, dimCmd_of_isDim hdim]⟩

/-! ## Decoding and encoding -/

/-- Settles O3: the host operations by their rows, the wire formats by their bits and command bytes. -/
theorem decodeOfEncodeIsIdentity : Obligations.DecodeOfEncodeIsIdentity := by
  intro cfg i hcfg hw
  cases i with
  | ledSof => exact decodeLed_sof
  | ledEof => exact decodeLed_eof
  | ledPixelWord br b g r => exact decodeLed_pixelWord br b g r
  | i2cData payload => exact decodeI2c_cmdData cfg payload
  | i2cOscOn => exact if_pos rfl
  | i2cBlink f => exact decodeI2c_blinkCmd hcfg f
  | i2cDim level => exact decodeI2c_dimCmd hcfg level
  | _ => exact decode_encode_host cfg rfl hw

/-- Settles O4: by the kind of the request, from what its decoder can answer. -/
theorem encodeOfDecodeIsIdentity : Obligations.EncodeOfDecodeIsIdentity := by
  intro cfg r i h
  cases r with
  | host selector operands =>
    obtain ⟨-, hw, henc⟩ := decodeHost_eq_ok h
    exact ⟨hw, henc cfg⟩
  | led bits =>
    obtain ⟨rfl, rfl⟩ | ⟨rfl, rfl⟩ | ⟨br, b, g, r, rfl, rfl⟩ := decodeLed_eq_ok h
    all_goals exact ⟨rfl, rfl⟩
  | i2c cmd payload => exact decodeI2c_eq_ok h

/-- Settles O5: each word's bits are laid out as its row's request and decoded. -/
theorem tableWordsDecode : Obligations.TableWordsDecode := by
  refine ⟨?_, ?_, ?_, ?_, ?_, ?_, ?_, ?_, ?_⟩ <;> decide

end Sys2Proof
end

section
/-! What an instruction puts out (spec/30_encoding.md R74, R77): the events that any instruction appends, by a grammar, and what
follows from it for the bus, for the LED wires, and for the buffers. -/

namespace Sys2Proof.Machine

/-! ## The events an instruction appends -/

/-- The lists of events that an instruction can append, given the parameters and the two buffers: pieces one after another, each a
collaborator call of a setup, some bits, a whole frame of the pixels, a command, or the whole segment buffer. -/
inductive Output (cfg : Config) (px : Vector Pixel 7) (seg : Vector Byte 8) : List Event → Prop where
  | nil : Output cfg px seg []
  | append {xs ys : List Event} : Output cfg px seg xs → Output cfg px seg ys → Output cfg px seg (xs ++ ys)
  | claim (line : Line) : Output cfg px seg [.claim line]
  | bits (bits : List Bool) : Output cfg px seg (bitsEvents bits)
  | frame : Output cfg px seg (frameEvents cfg.csActive px)
  | busOpen : Output cfg px seg [.busOpen]
  | addr : Output cfg px seg [.addr 0x70#7]
  | command {cmd : Byte} : IsBlockWrite cfg cmd [] → Output cfg px seg [.write cmd []]
  | data : Output cfg px seg [.write cmdData seg.toList]

/-- From the first state to the second, the parameters and the buffers stay and an output is appended. -/
structure Sent (s t : State) : Prop where
  cfg : t.cfg = s.cfg
  px : t.px = s.px
  seg : t.seg = s.seg
  history : ∃ evs, t.history = s.history ++ evs ∧ Output s.cfg s.px s.seg evs

theorem Sent.of_eq {s t : State} (hcfg : t.cfg = s.cfg) (hpx : t.px = s.px) (hseg : t.seg = s.seg)
    (hhistory : t.history = s.history) : Sent s t :=
  ⟨hcfg, hpx, hseg, [], by rw [hhistory, List.append_nil], .nil⟩

theorem Sent.refl (s : State) : Sent s s := .of_eq rfl rfl rfl rfl

theorem Sent.trans {s t u : State} (h : Sent s t) (h' : Sent t u) : Sent s u := by
  obtain ⟨hcfg, hpx, hseg, xs, hxs, hx⟩ := h
  obtain ⟨hcfg', hpx', hseg', ys, hys, hy⟩ := h'
  rw [hcfg, hpx, hseg] at hy
  exact ⟨hcfg'.trans hcfg, hpx'.trans hpx, hseg'.trans hseg, xs ++ ys, by rw [hys, hxs, List.append_assoc], hx.append hy⟩

/-! ## Statements that send and leave the buffers alone -/

/-- A statement that leaves the buffers and the parameters alone and appends an output. -/
def Sends (f : Op) : Prop := ∀ s, Sent s (f s)

namespace Sends

protected theorem andThen {f g : Op} (hf : Sends f) (hg : Sends g) : Sends (andThen f g) := fun s =>
  andThen_induction (P := Sent s) (hf s) fun h => h.trans (hg _)

protected theorem ignore : Sends ignore := Sent.refl

protected theorem raise (info : FaultInfo) : Sends (raise info) := fun _ => .of_eq rfl rfl rfl rfl

protected theorem withCtl (f : Ctl → Ctl) : Sends fun s => s.withCtl (f s.ctl) := fun _ => .of_eq rfl rfl rfl rfl

protected theorem markSetup (d : Driver) : Sends (markSetup d) := fun s => by
  cases d <;> exact .of_eq rfl rfl rfl rfl

protected theorem writeSim (d : Driver) (v : Bool) : Sends (writeSim d v) := fun s => by
  cases d <;> exact .of_eq rfl rfl rfl rfl

theorem emit_of {evs : State → List Event} (h : ∀ s, Output s.cfg s.px s.seg (evs s)) : Sends fun s => emit (evs s) s :=
  fun s => ⟨rfl, rfl, rfl, evs s, rfl, h s⟩

protected theorem pinClaim (line : Line) : Sends (pinClaim line) := fun s => by
  rw [pinClaim_eq]
  exact ⟨rfl, rfl, rfl, _, rfl, .claim line⟩

protected theorem driveClaimed : Sends driveClaimed := fun _ => .of_eq rfl rfl rfl rfl

protected theorem busOpen : Sends busOpen := fun s => by
  rw [busOpen_eq]
  exact ⟨rfl, rfl, rfl, _, rfl, .busOpen⟩

protected theorem busSetAddress : Sends (busSetAddress 0x70#7) := fun _ => ⟨rfl, rfl, rfl, _, rfl, .addr⟩

theorem busWrite_of {cmd : State → Byte} {payload : State → List Byte}
    (h : ∀ s, Output s.cfg s.px s.seg [.write (cmd s) (payload s)]) : Sends fun s => busWrite (cmd s) (payload s) s :=
  fun s => by
    dsimp only
    rw [busWrite_eq]
    exact ⟨rfl, rfl, rfl, _, rfl, h s⟩

theorem oscOn : Sends fun s => sendCmd s.cfg.cmdOscOn s := busWrite_of fun _ => .command (.inr ⟨rfl, .inl rfl⟩)

theorem blink (f : State → BlinkFreq) : Sends fun s => sendCmd (blinkCmd s.cfg (f s)) s :=
  busWrite_of fun s => .command (.inr ⟨rfl, .inr (.inl ⟨f s, rfl⟩)⟩)

theorem dim (level : State → BitVec 4) : Sends fun s => sendCmd (dimCmd s.cfg (level s)) s :=
  busWrite_of fun s => .command (.inr ⟨rfl, .inr (.inr ⟨level s, rfl⟩)⟩)

theorem flush : Sends fun s => busWrite cmdData s.seg.toList s := busWrite_of fun _ => .data

protected theorem ifNotSim (d : Driver) {f : Op} (hf : Sends f) : Sends (ifNotSim d f) := fun s => by
  unfold Machine.ifNotSim
  split
  · exact .refl s
  · exact hf s

protected theorem acquire : (d : Driver) → Sends (acquire d)
  | .led => .andThen (.pinClaim .dat) <| .andThen (.pinClaim .clk) <| .andThen (.pinClaim .cs) <|
      .andThen .driveClaimed .ignore
  | .disp => .andThen .busOpen <| .andThen .busSetAddress <| .andThen oscOn <|
      .andThen (blink fun s => s.ctl.blink) <| .andThen (dim fun s => s.ctl.br) .ignore

protected theorem ensureSetup (d : Driver) : Sends (ensureSetup d) := fun s => by
  unfold Machine.ensureSetup
  split
  · exact .refl s
  · exact Sends.andThen (.ifNotSim d (.acquire d)) (.markSetup d) s

protected theorem onWire (d : Driver) {f : Op} (hf : Sends f) : Sends (onWire d f) :=
  .andThen (.ensureSetup d) (.ifNotSim d hf)

theorem bitsOnWire (bits : List Bool) : Sends (onWire .led (emit (bitsEvents bits))) :=
  .onWire .led (emit_of fun _ => .bits bits)

protected theorem showFrame : Sends showFrame := .onWire .led (emit_of fun _ => .frame)

protected theorem changeSim (d : Driver) (v : Bool) : Sends (changeSim d v) := fun s => by
  unfold Machine.changeSim
  split
  · exact Sends.raise _ s
  · exact Sends.writeSim d v s

protected theorem storeAndSetup {store : Op} (hstore : Sends store) : Sends (storeAndSetup store) := fun s => by
  unfold Machine.storeAndSetup
  split
  · exact hstore.andThen (.ensureSetup .disp) s
  · exact Sends.andThen (.ensureSetup .disp) hstore s

protected theorem setBlink (code : Byte) : Sends (setBlink code) := fun s => by
  unfold Machine.setBlink
  split
  · exact Sends.raise _ s
  · rename_i f _
    exact Sends.andThen (.storeAndSetup (.withCtl ({ · with blink := f }))) (.ifNotSim .disp (blink fun _ => f)) s

protected theorem setDim (level : Byte) : Sends (setDim level) := fun s => by
  unfold Machine.setDim
  split
  · exact Sends.raise _ s
  · exact Sends.andThen (.storeAndSetup (.withCtl ({ · with br := level.extractLsb' 0 4 })))
      (.ifNotSim .disp (dim fun _ => level.extractLsb' 0 4)) s

/-- Every instruction that writes no buffer sends and leaves the buffers alone. -/
protected theorem body {i : Instr} (hbuf : isBufferOnly i = false) (hexit : i ≠ .ledExit) : Sends (body i) := by
  cases i with
  | ledSetPixel _ _ _ _ _ | ledSetAll _ _ _ _ | ledSetBrightness _ | ledClear => cases hbuf
  | dispSetDigitRaw _ _ | dispSetDecimal _ _ | dispSetDigit _ _ _ | dispPrintStr _ _ => cases hbuf
  | ledExit => exact absurd rfl hexit
  | ledSetup => exact .ensureSetup .led
  | dispSetup => exact .ensureSetup .disp
  | ledSetSimulation v => exact .changeSim .led v
  | dispSetSimulation v => exact .changeSim .disp v
  | ledShow => exact .showFrame
  | dispSetBlink code => exact .setBlink code
  | dispSetBrightness level => exact .setDim level
  | dispWriteDisplay => exact .onWire .disp flush
  | ledSof => exact bitsOnWire (List.replicate 32 false)
  | ledPixelWord br b g r =>
    have hbits := bitsOnWire (bitsMsb (pixelWord br b g r))
    rwa [← pixelWordEvents_eq] at hbits
  | ledEof => exact bitsOnWire (List.replicate 36 false)
  | i2cData payload => exact .onWire .disp flush
  | i2cOscOn => exact .onWire .disp oscOn
  | i2cBlink f => exact .onWire .disp (blink fun _ => f)
  | i2cDim level => exact .onWire .disp (dim fun _ => level)

end Sends

/-! ## Statements that write a buffer and send nothing -/

/-- A statement that appends no event. -/
def Silent (f : Op) : Prop := ∀ s, (f s).history = s.history

namespace Silent

protected theorem andThen {f g : Op} (hf : Silent f) (hg : Silent g) : Silent (andThen f g) := fun s =>
  andThen_induction (P := fun t => t.history = s.history) (hf s) fun h => (hg _).trans h

protected theorem withLevel (q : Brightness) {op : BitVec 5 → Op} (hop : ∀ level, Silent (op level)) :
    Silent (withLevel q op) := fun s => by
  unfold Machine.withLevel
  split
  · exact hop _ s
  · rfl

protected theorem writePixel (index : Nat) (p : Pixel) : Silent (writePixel index p) := fun s => by
  unfold Machine.writePixel
  split <;> rfl

protected theorem setDigitRaw (pos : Int) (mask : BitVec 16) : Silent (setDigitRaw pos mask) := fun s => by
  unfold Machine.setDigitRaw
  split <;> rfl

protected theorem setDecimal (pos : Int) (on : Bool) : Silent (setDecimal pos on) := fun s => by
  unfold Machine.setDecimal
  split <;> rfl

protected theorem setDigit (pos : Int) (ch : Char) (dp : Bool) : Silent (setDigit pos ch dp) := fun s => by
  have hpoint : Silent (if dp then setDecimal pos true else ignore) := by
    split
    · exact .setDecimal pos true
    · exact fun _ => rfl
  unfold Machine.setDigit
  split
  · rfl
  · exact Silent.andThen (.setDigitRaw pos _) hpoint s

protected theorem printFrom (start : Int) (text : List Char) : Silent (printFrom start text) := by
  induction text generalizing start with
  | nil => exact fun _ => rfl
  | cons ch rest ih => exact .andThen (.setDigit start ch false) (ih (start + 1))

/-- The eight buffer operations send nothing (40_lifecycle R86). -/
protected theorem body {i : Instr} (hbuf : isBufferOnly i = true) : Silent (body i) := by
  cases i with
  | ledSetPixel index _ _ _ q => exact .withLevel q fun _ => .writePixel index _
  | ledSetAll _ _ _ q | ledSetBrightness q => exact .withLevel q fun _ _ => rfl
  | ledClear => exact fun _ => rfl
  | dispSetDigitRaw pos mask => exact .setDigitRaw pos mask
  | dispSetDecimal pos on => exact .setDecimal pos on
  | dispSetDigit pos ch dp => exact .setDigit pos ch dp
  | dispPrintStr text jr => exact .printFrom _ text
  | _ => cases hbuf

end Silent

/-- What any instruction appends: an output of the parameters and of the buffers it leaves (R74, R77). -/
theorem body_output (i : Instr) (s : State) :
    ∃ evs, (body i s).history = s.history ++ evs ∧ Output s.cfg (body i s).px (body i s).seg evs := by
  have sent {t u : State} (h : Sent t u) : ∃ evs, u.history = t.history ++ evs ∧ Output t.cfg u.px u.seg evs := by
    obtain ⟨-, hpx, hseg, evs, hevs, ho⟩ := h
    exact ⟨evs, hevs, by rwa [hpx, hseg]⟩
  cases hbuf : isBufferOnly i with
  | true => exact ⟨[], by rw [Silent.body hbuf s, List.append_nil], .nil⟩
  | false =>
    by_cases hexit : i = .ledExit
    · subst hexit
      -- the buffer is cleared first, and then sent (41_led_chain R98)
      obtain ⟨-, e⟩ | ⟨-, e⟩ := andThen_cases clearColours showFrame s <;> rw [body, e]
      · exact sent (t := clearColours s) (Sends.showFrame _)
      · exact ⟨[], (List.append_nil _).symm, .nil⟩
    · exact sent (Sends.body hbuf hexit s)

/-- If a step answers a next state, it appended an output of the parameters and of the buffers it left. -/
theorem step_output {s t : State} (h : step s = .next t) :
    ∃ evs, t.history = s.history ++ evs ∧ Output s.cfg t.px t.seg evs := by
  obtain ⟨-, ⟨-, rfl⟩ | ⟨r, rest, i, -, -, he⟩⟩ := step_eq_next h
  · exact ⟨[], (List.append_nil _).symm, .nil⟩
  · obtain ⟨-, -, rfl⟩ := exec_eq_next.1 he
    exact body_output i (s.withInbox rest)

/-! ## The bus -/

/-- A dimming command is told from its upper four bits, where the base has none of the lower four (R69). -/
theorem isDimCmd_dimCmd {cfg : Config} (h : cfg.cmdDimBase &&& 0x0F#8 = 0#8) (level : BitVec 4) :
    isDimCmd cfg (dimCmd cfg level) = true := by
  rw [isDimCmd, (dimCmd_fields h level).1, beq_self_eq_true]

theorem dimBase_low {base : Byte} (h : base.extractLsb' 0 4 = 0#4) : base &&& 0x0F#8 = 0#8 := by
  revert base
  decide

theorem busLegal_of_isBlockWrite {cfg : Config} (hcfg : cfg.cmdDimBase &&& 0x0F#8 = 0#8) {cmd : Byte} {payload : List Byte}
    (h : IsBlockWrite cfg cmd payload) : Event.busLegal cfg (.write cmd payload) = true := by
  obtain ⟨rfl, hlen⟩ | ⟨rfl, rfl | ⟨f, rfl⟩ | ⟨level, rfl⟩⟩ := h
  · simp [Event.busLegal, hlen]
  · simp [Event.busLegal]
  · simp [Event.busLegal, isBlinkCmd_blinkCmd]
  · simp [Event.busLegal, isDimCmd_dimCmd hcfg]

theorem busLegal_of_led {cfg : Config} {e : Event} (h : e.driver = .led) : e.busLegal cfg = true := by
  cases e with
  | claim _ | pin _ _ | settle => rfl
  | busOpen | addr _ | write _ _ => cases h

/-- Whatever an instruction appends may stand on the bus (R74). -/
theorem Output.busLegal {cfg : Config} {px : Vector Pixel 7} {seg : Vector Byte 8} {evs : List Event}
    (hcfg : cfg.cmdDimBase &&& 0x0F#8 = 0#8) (h : Output cfg px seg evs) : evs.all (Event.busLegal cfg) = true := by
  have led {evs : List Event} (hevs : ∀ e ∈ evs, e.driver = .led) : evs.all (Event.busLegal cfg) = true :=
    List.all_eq_true.2 fun e he => busLegal_of_led (hevs e he)
  have write {cmd : Byte} {payload : List Byte} (hw : IsBlockWrite cfg cmd payload) :
      [Event.write cmd payload].all (Event.busLegal cfg) = true := by
    rw [List.all_cons, busLegal_of_isBlockWrite hcfg hw, List.all_nil, Bool.and_true]
  induction h with
  | append _ _ hxs hys => rw [List.all_append, hxs, hys, Bool.and_true]
  | bits bits => exact led (bitsEvents_driver bits)
  | frame => exact led (frameEvents_driver cfg.csActive px)
  | command hw => exact write hw
  | data => exact write (.inl ⟨rfl, Vector.length_toList⟩)
  | nil | claim _ | busOpen | addr => rfl

/-- Settles O15: a step appends what may stand on the bus, and changes no parameter. -/
theorem stepKeepsBusTrafficLegal : Obligations.StepKeepsBusTrafficLegal := by
  intro s t hlegal hs hstep
  obtain ⟨hdim, -⟩ := hlegal
  obtain ⟨evs, hevs, ho⟩ := step_output hstep
  rw [State.BusTrafficLegal, (GivesNothingUp.of_step hstep).cfg, hevs, List.all_append, hs, ho.busLegal (dimBase_low hdim),
    Bool.and_true]

/-! ## The frames -/

/-- Seen from outside a segment, the events leave no segment open, and each segment they close has this stream (41_led_chain
R97). -/
def ClosesOnly (active : Level) (stream : List Bool) (evs : List Event) : Prop :=
  ∀ o : Sampler, o.segment = none →
    (evs.foldl (Sampler.see active) o).segment = none ∧
    ∃ n, (evs.foldl (Sampler.see active) o).streams = o.streams ++ List.replicate n stream

theorem ClosesOnly.append {active : Level} {stream : List Bool} {xs ys : List Event} (hx : ClosesOnly active stream xs)
    (hy : ClosesOnly active stream ys) : ClosesOnly active stream (xs ++ ys) := by
  intro o ho
  obtain ⟨hseg, m, hm⟩ := hx o ho
  obtain ⟨hseg', n, hn⟩ := hy _ hseg
  rw [List.foldl_append]
  exact ⟨hseg', m + n, by rw [hn, hm, List.append_assoc, List.replicate_append_replicate]⟩

theorem ClosesOnly.of_no_stream {active : Level} {stream : List Bool} {evs : List Event}
    (h : ∀ o : Sampler, o.segment = none → (evs.foldl (Sampler.see active) o).segment = none ∧
      (evs.foldl (Sampler.see active) o).streams = o.streams) : ClosesOnly active stream evs := by
  intro o ho
  obtain ⟨hseg, hstreams⟩ := h o ho
  exact ⟨hseg, 0, hstreams.trans (List.append_nil _).symm⟩

/-- The segments that an output closes are frames of the pixels (30_encoding R74). -/
theorem Output.closesOnly {cfg : Config} {px : Vector Pixel 7} {seg : Vector Byte 8} {evs : List Event}
    (h : Output cfg px seg evs) : ClosesOnly cfg.csActive (frameBits px) evs := by
  induction h with
  | append _ _ hxs hys => exact hxs.append hys
  | bits bits => exact .of_no_stream (see_bits_outside cfg.csActive bits)
  | frame =>
    intro o ho
    obtain ⟨hseg, hstreams⟩ := see_segment cfg.csActive (frameBits px) o ho
    rw [frameEvents_eq]
    exact ⟨hseg, 1, hstreams⟩
  | nil | claim _ | busOpen | addr | command _ | data => exact .of_no_stream fun _ ho => ⟨ho, rfl⟩

/-- The bits of a pixel in a frame: its four bytes (41_led_chain R96). -/
def pixelBits (p : Pixel) : List Bool :=
  bitsMsb (ctrlByte p.br) ++ bitsMsb p.b ++ bitsMsb p.g ++ bitsMsb p.r

theorem frameBits_eq (px : Vector Pixel 7) :
    frameBits px = List.replicate 32 false ++ px.toList.flatMap pixelBits ++ List.replicate 36 false := rfl

theorem pixelBits_length (p : Pixel) : (pixelBits p).length = 32 := by
  simp [pixelBits]

theorem flatMap_pixelBits_length (ps : List Pixel) : (ps.flatMap pixelBits).length = 32 * ps.length := by
  rw [List.length_flatMap, List.map_congr_left (fun p _ => pixelBits_length p), List.map_const', List.sum_replicate, smul_eq_mul,
    Nat.mul_comm]

theorem toList_split (px : Vector Pixel 7) {k : Nat} (h : k < 7) :
    ∃ before after, px.toList = before ++ px[k] :: after ∧ before.length = k := by
  have hk : k < px.toList.length := by rwa [Vector.length_toList]
  refine ⟨px.toList.take k, px.toList.drop (k + 1), ?_, List.length_take_of_le hk.le⟩
  rw [← Vector.getElem_toList hk, List.getElem_cons_drop, List.take_append_drop]

/-- From bit 32 + 32k on, a frame is the bits of pixel k and what follows (41_led_chain R96). -/
theorem frameBits_drop (px : Vector Pixel 7) {k : Nat} (h : k < 7) :
    ∃ rest, (frameBits px).drop (32 + 32 * k) = pixelBits px[k] ++ rest := by
  obtain ⟨before, after, hpx, hlen⟩ := toList_split px h
  refine ⟨after.flatMap pixelBits ++ List.replicate 36 false, ?_⟩
  rw [frameBits_eq, hpx, List.flatMap_append, List.flatMap_cons]
  simp only [List.append_assoc]
  rw [← List.append_assoc]
  refine List.drop_left' ?_
  rw [List.length_append, List.length_replicate, flatMap_pixelBits_length, hlen]

/-- The frame of a buffer has the form of a frame (30_encoding R59 to R63). -/
theorem isFrame_frameBits (px : Vector Pixel 7) : isFrame (frameBits px) = true := by
  have hpixels : (px.toList.flatMap pixelBits).length = 224 := by rw [flatMap_pixelBits_length, Vector.length_toList]
  have hword : ∀ k ∈ List.range 7, ((frameBits px).drop (32 + 32 * k)).take 3 = [true, true, true] := by
    intro k hk
    obtain ⟨rest, hrest⟩ := frameBits_drop px (List.mem_range.1 hk)
    rw [hrest, pixelBits, ← bitsMsb_pixelWord, List.take_append_of_le_length (by simp), bitsMsb_pixelWord_take]
  simp only [isFrame, Bool.and_eq_true, beq_iff_eq, List.all_eq_true]
  refine ⟨⟨⟨?_, ?_⟩, hword⟩, ?_⟩ <;> rw [frameBits_eq]
  · simp [hpixels]
  · rw [List.append_assoc, List.take_left' List.length_replicate]
  · exact List.drop_left' (by simp [hpixels])

/-- Settles O16: an output seen from outside a segment closes frames only, and leaves none open. -/
theorem stepKeepsFramesWhole : Obligations.StepKeepsFramesWhole := by
  intro s t hs hstep
  obtain ⟨hopen, hframes⟩ := hs
  obtain ⟨evs, hevs, ho⟩ := step_output hstep
  obtain ⟨hopen', n, hn⟩ := ho.closesOnly _ hopen
  rw [State.FramesWhole, (GivesNothingUp.of_step hstep).cfg, hevs, sampledStreams, observe, List.foldl_append]
  refine ⟨hopen', ?_⟩
  rw [← observe, hn, List.all_append, ← sampledStreams, hframes, List.all_replicate, isFrame_frameBits, ite_self]
  rfl

/-! ## The buffers -/

/-- The bytes of pixel `k` in a frame: control byte, blue, green, red, from byte 4 + 4k on (R77). -/
theorem frameBits_bytes (px : Vector Pixel 7) {k : Nat} (h : k < 7) :
    ((frameBits px).drop (8 * (4 + 4 * k))).take 8 = bitsMsb (ctrlByte px[k].br) ∧
    ((frameBits px).drop (8 * (5 + 4 * k))).take 8 = bitsMsb px[k].b ∧
    ((frameBits px).drop (8 * (6 + 4 * k))).take 8 = bitsMsb px[k].g ∧
    ((frameBits px).drop (8 * (7 + 4 * k))).take 8 = bitsMsb px[k].r := by
  obtain ⟨rest, hrest⟩ := frameBits_drop px h
  have hbyte (j : Nat) : (frameBits px).drop (8 * (4 + j + 4 * k)) = (pixelBits px[k] ++ rest).drop (8 * j) := by
    rw [← hrest, List.drop_drop]
    congr 1
    omega
  refine ⟨congrArg (List.take 8) (hbyte 0) |>.trans ?_, congrArg (List.take 8) (hbyte 1) |>.trans ?_,
    congrArg (List.take 8) (hbyte 2) |>.trans ?_, congrArg (List.take 8) (hbyte 3) |>.trans ?_⟩ <;>
    simp [pixelBits, List.drop_append, List.drop_of_length_le]

/-- A bus write with a payload sends the segment buffer after command byte 0 (R66, R77). -/
theorem Output.payload {cfg : Config} {px : Vector Pixel 7} {seg : Vector Byte 8} {evs : List Event}
    (h : Output cfg px seg evs) {cmd : Byte} {payload : List Byte} (hw : (cmd, payload) ∈ busWrites evs) (hp : payload ≠ []) :
    cmd = cmdData ∧ payload = seg.toList := by
  induction h with
  | append _ _ hxs hys =>
    rw [busWrites_append, List.mem_append] at hw
    exact hw.elim hxs hys
  | bits bits =>
    rw [busWrites_of_led _ (bitsEvents_driver bits)] at hw
    cases hw
  | frame =>
    rw [busWrites_of_led _ (frameEvents_driver cfg.csActive px)] at hw
    cases hw
  | command _ =>
    obtain ⟨-, rfl⟩ := Prod.mk.inj (List.mem_singleton.1 hw)
    exact absurd rfl hp
  | data => exact Prod.mk.inj (List.mem_singleton.1 hw)
  | nil | claim _ | busOpen | addr => cases hw

/-- A position's mask is its two bytes, low byte first (20_memory R42). -/
theorem readMask_eq_or (seg : Vector Byte 8) (p : Fin 4) :
    readMask seg p = (seg[2 * p.val]'(by omega)).setWidth 16 ||| ((seg[2 * p.val + 1]'(by omega)).setWidth 16 <<< 8) := by
  rw [readMask, ← BitVec.setWidth_eq (_ ++ _), setWidth_append_eq_or, BitVec.or_comm]

/-- Settles O59: an output's frames and data writes are of the buffers that the instruction leaves. -/
theorem outputCarriesTheBuffers : Obligations.OutputCarriesTheBuffers := by
  intro i s t hst
  obtain ⟨-, -, rfl⟩ := exec_eq_next.1 hst
  obtain ⟨evs, hevs, ho⟩ := body_output i s
  refine ⟨evs, hevs, fun bits hbits k hk => ?_, fun cmd payload hw hp => ?_, fun hi => ?_⟩
  · obtain ⟨-, n, hn⟩ := ho.closesOnly { dat := .low, segment := none, streams := [] } rfl
    rw [sampledStreams, observe, hn, List.nil_append] at hbits
    rw [List.eq_of_mem_replicate hbits]
    exact frameBits_bytes _ hk
  · obtain ⟨rfl, rfl⟩ := ho.payload hw hp
    exact ⟨rfl, Vector.length_toList, fun p => ⟨_, _, by simp, by simp, (readMask_eq_or _ p).symm⟩⟩
  · have hsent : Sent s (body i s) := by
      obtain rfl | rfl := hi
      · exact Sends.showFrame s
      · exact Sends.onWire .disp .flush s
    exact ⟨hsent.px, hsent.seg⟩

end Sys2Proof.Machine
end

section
/-! The composite operations (spec/30_encoding.md R58) and the wire formats standing alone (R60 to R69). -/

namespace Sys2Proof.Machine

/-! ## Expansions -/

/-- An expansion without a refused instruction is the bodies of its instructions in order (R58, 60_exceptions R129). -/
theorem execExpansion_eq_inOrder {is : List Instr} (hr : ∀ i ∈ is, ∀ cfg, refusesInstr cfg i = false) {s : State}
    (hf : s.fault = none) : execExpansion is s = .next (inOrder (is.map body) s) := by
  induction is generalizing s with
  | nil => rfl
  | cons i is ih =>
    obtain ⟨hi, hrest⟩ := List.forall_mem_cons.1 hr
    rw [execExpansion_cons hf (hi s.cfg), List.map_cons, inOrder_cons]
    obtain ⟨h, e⟩ | ⟨h, e⟩ := andThen_cases (body i) (inOrder (is.map body)) s <;> rw [e]
    · rw [if_pos h, ih hrest h]
    · rw [if_neg h]

/-- An instruction is its expansion where its body is the bodies of the expansion in order. -/
theorem exec_eq_expansion {i : Instr} {is : List Instr} {s : State} (hf : s.fault = none) (hi : refusesInstr s.cfg i = false)
    (hr : ∀ j ∈ is, ∀ cfg, refusesInstr cfg j = false) (hbody : body i s = inOrder (is.map body) s) :
    exec i s = execExpansion is s := by
  rw [exec_of_running hf hi, execExpansion_eq_inOrder hr hf, hbody]

theorem andThen_ignore (f : Op) : andThen f ignore = f := by
  funext s
  obtain ⟨-, e⟩ | ⟨-, e⟩ := andThen_cases f ignore s <;> exact e

/-! ### Every pixel -/

theorem withLevel_of_legal {q : Brightness} (h : legalBright q = true) (op : BitVec 5 → Op) (s : State) :
    withLevel q op s = op (quant s.cfg.quant q) s := if_pos h

theorem withLevel_of_illegal {q : Brightness} (h : legalBright q = false) (op : BitVec 5 → Op) (s : State) :
    withLevel q op s = raise (.ledBrightnessRange q) s := if_neg (by rw [h]; nofun)

theorem writePixel_eq (index : Nat) (p : Pixel) (s : State) :
    writePixel index p s = s.withPx (s.px.setIfInBounds index p) := by
  unfold writePixel
  split
  · congr 1
    ext1 j hj
    rw [Vector.getElem_set, Vector.getElem_setIfInBounds]
  · rw [Vector.setIfInBounds_eq_of_size_le (by omega), State.withPx_self, ignore_eq]

theorem body_ledSetPixel_of_legal {q : Brightness} (h : legalBright q = true) (i : Nat) (r g b : Byte) (s : State) :
    body (.ledSetPixel i r g b q) s = s.withPx (s.px.setIfInBounds i ⟨r, g, b, quant s.cfg.quant q⟩) := by
  rw [body, withLevel_of_legal h, writePixel_eq]

/-- Setting pixels one by one, with a legal brightness, is one write of the buffer. -/
theorem inOrder_setPixels {q : Brightness} (h : legalBright q = true) (r g b : Byte) (is : List Nat) {s : State}
    (hf : s.fault = none) :
    inOrder (is.map fun i => body (.ledSetPixel i r g b q)) s =
      s.withPx (is.foldl (fun px i => px.setIfInBounds i ⟨r, g, b, quant s.cfg.quant q⟩) s.px) := by
  induction is generalizing s with
  | nil => rfl
  | cons i is ih =>
    have hpixel := body_ledSetPixel_of_legal h i r g b s
    rw [List.map_cons, inOrder_cons, andThen_of_running (by rw [hpixel]; exact hf), hpixel]
    exact ih (s := s.withPx _) hf

/-- A buffer after one record has been written at some indices. -/
theorem getElem_foldl_setIfInBounds (p : Pixel) (is : List Nat) (px : Vector Pixel 7) {j : Nat} (hj : j < 7) :
    (is.foldl (fun px i => px.setIfInBounds i p) px)[j] = if j ∈ is then p else px[j] := by
  induction is generalizing px with
  | nil => rfl
  | cons i is ih =>
    rw [List.foldl_cons, ih, Vector.getElem_setIfInBounds]
    grind

/-- `SET_ALL` is `SET_PIXEL` of each pixel in order; an illegal brightness faults in the first (41_led_chain R89, R91). -/
theorem body_ledSetAll (r g b : Byte) (q : Brightness) {s : State} (hf : s.fault = none) :
    body (.ledSetAll r g b q) s = inOrder ((List.range 7).map fun i => body (.ledSetPixel i r g b q)) s := by
  cases h : legalBright q with
  | true =>
    rw [inOrder_setPixels h r g b _ hf, body, withLevel_of_legal h]
    refine congrArg s.withPx (Vector.ext fun j hj => ?_)
    rw [mapPixels_get, getElem_foldl_setIfInBounds, if_pos (List.mem_range.2 hj)]
  | false =>
    have hpixel : body (.ledSetPixel 0 r g b q) s = raise (.ledBrightnessRange q) s := by
      rw [body, withLevel_of_illegal h]
    have hfirst : (body (.ledSetPixel 0 r g b q) s).fault ≠ none := by
      rw [hpixel]
      nofun
    rw [List.range_succ_eq_map, List.map_cons, inOrder_cons, andThen_of_faulted hfirst, hpixel]
    rw [body, withLevel_of_illegal h]

/-! ### Characters -/

/-- Printing is setting one digit for each character from the start position (43_glyph R117). -/
theorem printFrom_eq_inOrder (start : Int) (text : List Char) :
    printFrom start text = inOrder ((text.mapIdx fun i ch => Instr.dispSetDigit (start + i) ch false).map body) := by
  induction text generalizing start with
  | nil => rfl
  | cons ch rest ih =>
    rw [List.mapIdx_cons, List.map_cons, inOrder_cons, printFrom, ih]
    simp only [Nat.cast_add, Nat.cast_one, Nat.cast_zero, add_zero, body, add_comm (1 : Int), add_assoc]

/-- Settles O52: each composite's body is the bodies of its expansion in order. -/
theorem compositesEqualExpansions : Obligations.CompositesEqualExpansions := by
  intro s hf
  refine ⟨fun r g b q => ?_, ?_, fun pos ch decimal => ⟨fun m hm => ?_, fun hm => ?_⟩, fun text jr hr => ?_⟩
  · refine exec_eq_expansion hf rfl (by simp [refusesInstr]) ?_
    rw [body_ledSetAll r g b q hf, List.map_map]
    rfl
  · refine exec_eq_expansion hf rfl (by simp [refusesInstr]) ?_
    simp only [List.map_cons, List.map_nil, inOrder_cons, inOrder_nil, andThen_ignore]
    rfl
  · refine exec_eq_expansion hf rfl ?_ ?_
    · cases decimal <;> simp [refusesInstr]
    · cases decimal <;> simp [body, setDigit, hm, andThen_ignore]
  · rw [exec_of_running hf rfl]
    simp only [body, setDigit, hm]
    rfl
  · refine exec_eq_expansion hf hr ?_ ?_
    · intro j hj
      obtain ⟨k, hk, rfl⟩ := List.mem_mapIdx.1 hj
      exact fun _ => rfl
    · rw [body, printFrom_eq_inOrder, printStart]

/-! ## Wire formats standing alone -/

/-- On a driver that is physically set up, a wire format is its emission (40_lifecycle R78, R79). -/
theorem onWire_of_ready {d : Driver} {s : State} (hf : s.fault = none) (hs : (s.flags d).isSetup = true)
    (hn : (s.flags d).sim = false) (f : Op) : onWire d f s = f s := by
  rw [onWire, andThen_setup_ifNotSim, ensureSetup_of_setup hs, if_pos ⟨hf, hn⟩]

/-- Bits on their own, inside a segment, are the segment's stream (41_led_chain R97). -/
theorem sampledStreams_segment (active : Level) (bits : List Bool) :
    sampledStreams active ([.pin .cs active] ++ bitsEvents bits ++ [.pin .cs active.not]) = [bits] :=
  (see_segment active bits _ rfl).2

/-- A unit of the LED frame appends its bits and leaves CLK low and DAT at the last (R60, R61, R63, 41_led_chain R94). -/
theorem exec_bits_of_ready {s : State} (hs : s.LedReady) {i : Instr} (hr : refusesInstr s.cfg i = false) {bits : List Bool}
    {last : Bool} (hi : body i = onWire .led (emit (bitsEvents (bits ++ [last])))) :
    exec i s = .next { s with
      lines := { s.lines with dat := .driven (Level.ofBit last), clk := .driven .low }
      history := s.history ++ bitsEvents (bits ++ [last]) } := by
  obtain ⟨hf, hset, hn⟩ := hs
  rw [exec_of_running hf hr, hi, onWire_of_ready (d := .led) hf hset hn, emit_frame, lines_after_bits]

theorem bitsMsb_eq_concat (x : Byte) : ∃ bits, bitsMsb x = bits ++ [x.getLsbD 0] :=
  ⟨(List.range 7).map fun k => x.getMsbD k, by simp [bitsMsb, List.range_succ (n := 7), BitVec.getMsbD]⟩

/-- Settles O53: each unit's events are those of its bits. -/
theorem ledUnitsAppendTheirBits : Obligations.LedUnitsAppendTheirBits := by
  intro s hs
  have sampled (bits : List Bool) (active : Level) := sampledStreams_segment active bits
  refine ⟨⟨_, exec_bits_of_ready hs rfl (bits := List.replicate 31 false) (last := false) rfl, sampled _⟩,
    ⟨_, exec_bits_of_ready hs rfl (bits := List.replicate 35 false) (last := false) rfl, sampled _⟩, fun br b g r => ?_⟩
  obtain ⟨bits, hbits⟩ := bitsMsb_eq_concat r
  have hword : bitsMsb (pixelWord br b g r) = (bitsMsb (ctrlByte br) ++ bitsMsb b ++ bitsMsb g ++ bits) ++ [r.getLsbD 0] := by
    rw [bitsMsb_pixelWord, hbits, List.append_assoc _ bits]
  rw [hword]
  exact ⟨_, exec_bits_of_ready hs rfl (by rw [body, pixelWordEvents_eq, hword]), sampled _⟩

/-- A bus format on a display that is physically set up is its write (R65 to R69). -/
theorem exec_write_of_ready {s : State} (hs : s.DispReady) {i : Instr} (hr : refusesInstr s.cfg i = false) {f : Op}
    (hi : body i = onWire .disp f) : exec i s = .next (f s) := by
  obtain ⟨hf, hset, hn⟩ := hs
  rw [exec_of_running hf hr, hi, onWire_of_ready (d := .disp) hf hset hn]

theorem toList_eq_bytes (v : Vector Byte 8) : v.toList = [v[0], v[1], v[2], v[3], v[4], v[5], v[6], v[7]] := by
  obtain ⟨⟨l⟩, h⟩ := v
  match l, h with
  | [_, _, _, _, _, _, _, _], _ => rfl

/-- Settles O54: on a display that is physically set up each format is its bus write. -/
theorem busUnitsAreOneWrite : Obligations.BusUnitsAreOneWrite := by
  intro s hs
  have ⟨hf, _, _⟩ := hs
  have write (cmd : Byte) (payload : List Byte) := busWrite_eq cmd payload s
  rw [hf] at write
  have sends {i : Instr} (hr : refusesInstr s.cfg i = false) {f : Op} (hi : body i = onWire .disp f) {t : State}
      (ht : f s = t) : exec i s = .next t := (exec_write_of_ready hs hr hi).trans (congrArg Host.Outcome.next ht)
  refine ⟨fun payload => sends rfl rfl ?_, sends rfl rfl ?_, fun f => sends rfl rfl ?_, fun level => sends rfl rfl ?_⟩
  · rw [← toList_eq_bytes]
    exact write cmdData s.seg.toList
  · exact write s.cfg.cmdOscOn []
  · exact write (blinkCmd s.cfg f) []
  · exact write (dimCmd s.cfg level) []

end Sys2Proof.Machine
end

section
/-! The lifecycle statements (spec/40_lifecycle.md): who has made calls (R78, R85), the simulation flag (R82, R83), setting up (R78 to
R81, R84, R87), which operations set up (R86), and that simulation changes no bookkeeping (R85). -/

namespace Sys2Proof.Machine

/-! ## A driver that is not physically set up has made no call -/

theorem sameDriver_flags {d : Driver} {s t : State} (h : SameDriver d s t) : s.flags d = t.flags d := by
  cases d with
  | led =>
    obtain ⟨-, hled, -⟩ := h
    exact hled
  | disp =>
    obtain ⟨-, -, hdisp, -⟩ := h
    exact hdisp

theorem sameDriver_eventsOf {d : Driver} {s t : State} (h : SameDriver d s t) :
    eventsOf d s.history = eventsOf d t.history := by
  cases d <;> (
    obtain ⟨-, -, -, -, -, hev⟩ := h
    exact hev)

theorem eq_or_eq_otherDriver (d d' : Driver) : d' = d ∨ d' = otherDriver d := by
  cases d <;> cases d' <;> simp [otherDriver]

@[simp] theorem busWrite_flags (cmd : Byte) (payload : List Byte) (s : State) (d : Driver) :
    (busWrite cmd payload s).flags d = s.flags d := by
  rw [busWrite_eq]

@[simp] theorem emit_flags (evs : List Event) (s : State) (d : Driver) : (emit evs s).flags d = s.flags d := by
  cases d <;> rfl

theorem markSetup_sim (d : Driver) (s : State) : ((markSetup d s).flags d).sim = (s.flags d).sim := by
  cases d <;> rfl

theorem markSetup_history (d : Driver) (s : State) : (markSetup d s).history = s.history := by
  cases d <;> rfl

theorem writeSim_history (d : Driver) (v : Bool) (s : State) : (writeSim d v s).history = s.history := by
  cases d <;> rfl

/-- Setting up leaves the simulation flag as it was (R78). -/
theorem ensureSetup_sim (d : Driver) {s : State} (hf : s.fault = none) :
    ((ensureSetup d s).flags d).sim = (s.flags d).sim := by
  cases d with
  | led =>
    obtain ⟨-, e⟩ | ⟨-, ⟨-, e⟩ | ⟨-, _, _, _, e⟩ | ⟨-, _, _, _, _, e⟩⟩ := ensureSetup_led_cases s hf <;>
      exact congrArg (·.led.sim) e
  | disp =>
    obtain ⟨-, e⟩ | ⟨-, ⟨-, e⟩ | ⟨-, _, _, _, _, -, e⟩ | ⟨-, _, _, e⟩⟩ := ensureSetup_disp_cases s hf <;>
      exact congrArg (·.disp.sim) e

/-- In simulation setting up makes no call (R78, R79). -/
theorem ensureSetup_history_of_sim {d : Driver} {s : State} (hf : s.fault = none) (hsim : (s.flags d).sim = true) :
    (ensureSetup d s).history = s.history := by
  cases hset : (s.flags d).isSetup with
  | true => rw [ensureSetup_of_setup hset]
  | false => rw [ensureSetup_of_sim hf hset hsim, markSetup_history]

/-- A statement that stays inside a driver keeps the claim if it keeps it for that driver. -/
theorem noCallUnlessSetUp_of_confined {d : Driver} {f : Op} (hf : Confined d f) {s : State} (hs : s.fault = none)
    (h : s.NoCallUnlessSetUp)
    (hown : (f s).fault = none →
      ((f s).flags d).isSetup = true ∧ ((f s).flags d).sim = false ∨ eventsOf d (f s).history = []) :
    (f s).NoCallUnlessSetUp := by
  intro hfault d'
  obtain rfl | rfl := eq_or_eq_otherDriver d d'
  · exact hown hfault
  · rw [sameDriver_flags (hf.frame s), sameDriver_eventsOf (hf.frame s)]
    exact h hs _

theorem noCallUnlessSetUp_writeSim (d : Driver) (v : Bool) {s : State} (hs : s.fault = none)
    (hset : (s.flags d).isSetup = false) (h : s.NoCallUnlessSetUp) : (writeSim d v s).NoCallUnlessSetUp := by
  refine noCallUnlessSetUp_of_confined (.writeSim d v) hs h fun _ => .inr ?_
  rw [writeSim_history]
  exact (h hs d).resolve_left (by simp [hset])

/-- Setting up makes calls only on a driver that is not simulated, and without a fault leaves that driver set up (R78, R79). -/
theorem noCallUnlessSetUp_ensureSetup (d : Driver) : Keeps State.NoCallUnlessSetUp (ensureSetup d) := by
  intro s hs h
  refine noCallUnlessSetUp_of_confined (.ensureSetup d) hs h fun hfault => ?_
  cases hsim : (s.flags d).sim with
  | true =>
    refine .inr ?_
    rw [ensureSetup_history_of_sim hs hsim]
    exact (h hs d).resolve_left (by simp [hsim])
  | false => exact .inl ⟨ensureSetup_isSetup hfault, (ensureSetup_sim d hs).trans hsim⟩

/-- On a driver that is physically set up, a call keeps the claim. -/
theorem noCallUnlessSetUp_of_ready {d : Driver} {f : Op} (hf : Confined d f) {s : State} (hs : s.fault = none)
    (hset : (s.flags d).isSetup = true) (hsim : (s.flags d).sim = false) (hflags : (f s).flags d = s.flags d)
    (h : s.NoCallUnlessSetUp) : (f s).NoCallUnlessSetUp :=
  noCallUnlessSetUp_of_confined hf hs h fun _ => .inl (by rw [hflags]; exact ⟨hset, hsim⟩)

theorem noCallUnlessSetUp_emit {evs : List Event} (hevs : ∀ e ∈ evs, e.driver = .led) {s : State} (hs : s.LedReady)
    (h : s.NoCallUnlessSetUp) : (emit evs s).NoCallUnlessSetUp :=
  have ⟨hf, hset, hsim⟩ := hs
  noCallUnlessSetUp_of_ready (.emit hevs) hf hset hsim rfl h

theorem noCallUnlessSetUp_busWrite (cmd : Byte) (payload : List Byte) {s : State} (hs : s.DispReady)
    (h : s.NoCallUnlessSetUp) : (busWrite cmd payload s).NoCallUnlessSetUp :=
  have ⟨hf, hset, hsim⟩ := hs
  noCallUnlessSetUp_of_ready (.busWrite cmd payload) hf hset hsim (busWrite_flags _ _ _ _) h

theorem noCallUnlessSetUp_keptByParts : KeptByParts State.NoCallUnlessSetUp :=
  .of_ctl
    (hraise := fun _ _ _ _ => nofun)
    (hpx := fun _ _ _ h => h)
    (hseg := fun _ _ _ h => h)
    (hctl := fun _ _ _ _ h => h)
    (hsim := fun d v _ hf hset h => noCallUnlessSetUp_writeSim d v hf hset h)
    (hsetup := noCallUnlessSetUp_ensureSetup)
    (hframe := fun _ hs h => noCallUnlessSetUp_emit (frameEvents_driver _ _) hs h)
    (hwrite := fun cmd payload _ hs h => noCallUnlessSetUp_busWrite cmd payload hs h)

/-- Settles O14: every part of every instruction carries the invariant over. -/
theorem stepKeepsNoCallUnlessSetUp : Obligations.StepKeepsNoCallUnlessSetUp := fun _ _ hs hstep =>
  step_keeps (fun _ _ h => h)
    (noCallUnlessSetUp_keptByParts.allBodies fun bits _ hready h => noCallUnlessSetUp_emit (bitsEvents_driver bits) hready h)
    hs hstep

/-! ## The simulation flag -/

theorem changeSim_of_not_setup {d : Driver} {s : State} (hset : (s.flags d).isSetup = false) (v : Bool) :
    changeSim d v s = writeSim d v s := by
  simp [changeSim, hset]

theorem writeSim_self (d : Driver) (s : State) : writeSim d (s.flags d).sim s = s := by
  cases d <;> rfl

theorem changeSim_same (d : Driver) (s : State) : changeSim d (s.flags d).sim s = s := by
  simp [changeSim, writeSim_self]

theorem changeSim_of_setup_ne {d : Driver} {s : State} {v : Bool} (hset : (s.flags d).isSetup = true)
    (hv : v ≠ (s.flags d).sim) : changeSim d v s = raise (.simChangedAfterSetup d v) s := by
  simp [changeSim, hset, hv]

/-- Settles O20: by the three cases of `changeSim`, for each driver. -/
theorem simulationFlagRules : Obligations.SimulationFlagRules := by
  intro s v hf
  have led : exec (.ledSetSimulation v) s = .next (changeSim .led v s) := exec_of_running hf rfl
  have disp : exec (.dispSetSimulation v) s = .next (changeSim .disp v s) := exec_of_running hf rfl
  rw [led, disp]
  refine ⟨fun hset => ?_, fun _ hv => ?_, fun hset hv => ?_, fun hset => ?_, fun _ hv => ?_, fun hset hv => ?_⟩
  · rw [changeSim_of_not_setup (d := .led) hset]
    rfl
  · rw [hv, changeSim_same .led]
  · rw [changeSim_of_setup_ne (d := .led) hset hv]
    rfl
  · rw [changeSim_of_not_setup (d := .disp) hset]
    rfl
  · rw [hv, changeSim_same .disp]
  · rw [changeSim_of_setup_ne (d := .disp) hset hv]
    rfl

/-! ## Setting up -/

theorem exec_ledSetup {s : State} (hf : s.fault = none) : exec .ledSetup s = .next (ensureSetup .led s) :=
  exec_of_running hf rfl

theorem exec_dispSetup {s : State} (hf : s.fault = none) : exec .dispSetup s = .next (ensureSetup .disp s) :=
  exec_of_running hf rfl

/-- In simulation an operation that needs the resource does no more than set up (R79). -/
theorem onWire_of_sim {d : Driver} {s : State} (hf : s.fault = none) (hsim : (s.flags d).sim = true) (f : Op) :
    onWire d f s = ensureSetup d s := by
  rw [onWire, andThen_setup_ifNotSim, if_neg]
  simp [ensureSetup_sim d hf, hsim]

theorem markSetup_led_of_sim {s : State} (hsim : s.led.sim = true) :
    markSetup .led s = { s with led := { isSetup := true, sim := true } } := by
  simp [markSetup, State.withLed, hsim]

theorem markSetup_disp_of_sim {s : State} (hsim : s.disp.sim = true) :
    markSetup .disp s =
      { s with disp := { isSetup := true, sim := true }, ctl := { s.ctl with initialized := true } } := by
  simp [markSetup, State.withDisp, State.withCtl, hsim]

/-- In simulation setting up the LED driver leaves it set up and simulated, whether or not it was set up before (R78, R81). -/
theorem ensureSetup_led_of_sim {s : State} (hf : s.fault = none) (hsim : s.led.sim = true) :
    ensureSetup .led s = { s with led := { isSetup := true, sim := true } } := by
  cases hset : s.led.isSetup with
  | true =>
    rw [ensureSetup_of_setup (d := .led) hset]
    exact congrArg₂ (fun isSetup sim => s.withLed { isSetup := isSetup, sim := sim }) hset hsim
  | false => rw [ensureSetup_of_sim (d := .led) hf hset hsim, markSetup_led_of_sim hsim]

/-- Settles O21: a driver that is set up is left alone, and in simulation setting up is its flag. -/
theorem setupOnceAndSimulated : Obligations.SetupOnceAndSimulated := by
  intro s hf
  rw [exec_ledSetup hf, exec_dispSetup hf]
  refine ⟨fun hset => ?_, fun _ hsim => ?_, fun hsim => ?_, fun hset => ?_, fun hset hsim => ?_⟩
  · rw [ensureSetup_of_setup (d := .led) hset]
  · rw [ensureSetup_led_of_sim hf hsim]
  · have hshow : body .ledShow s = ensureSetup .led s := onWire_of_sim (d := .led) hf hsim _
    rw [exec_of_running hf rfl, hshow, ensureSetup_led_of_sim hf hsim]
  · rw [ensureSetup_of_setup (d := .disp) hset]
  · rw [ensureSetup_of_sim (d := .disp) hf hset hsim, markSetup_disp_of_sim hsim]

/-! ### The claims of the LED driver -/

/-- With three claims that succeed, `Acquire(led)` drives the lines (R80). -/
theorem acquireLed_of_claims {s : State} (hf : s.fault = none) (hclaims : ∀ k < 3, s.claimAt k = .ok) :
    acquireLed s = { s with
      lines := { dat := .driven .low, clk := .driven .low, cs := .driven s.nextCsLevel }
      history := s.history ++ [.claim .dat, .claim .clk, .claim .cs]
      claims := s.claims.skip 3
      csLevels := s.csLevels.skip 1 } := by
  rw [acquireLed_eq s hf, hclaims 0 (by decide), hclaims 1 (by decide), hclaims 2 (by decide)]

/-- With three claims that succeed, setting up claims the lines in order and drives them (R80). -/
theorem ensureSetup_led_of_claims {s : State} (hs : s.LedFresh) (hclaims : ∀ k < 3, s.claimAt k = .ok) :
    ensureSetup .led s = { s with
      led := { isSetup := true, sim := false }
      lines := { dat := .driven .low, clk := .driven .low, cs := .driven s.nextCsLevel }
      history := s.history ++ [.claim .dat, .claim .clk, .claim .cs]
      claims := s.claims.skip 3
      csLevels := s.csLevels.skip 1 } := by
  obtain ⟨hf, hset, hsim⟩ := hs
  have hacq := acquireLed_of_claims hf hclaims
  rw [ensureSetup_of_fresh (d := .led) hset hsim, acquire, andThen_of_running (by rw [hacq]; exact hf), hacq, ← hsim]
  rfl

/-- Settles O22: `ensureSetup_led_of_claims` is the body of `LED.SETUP`. -/
theorem ledSetupClaimsLines : Obligations.LedSetupClaimsLines := by
  intro s hs hclaims
  have ⟨hf, _, _⟩ := hs
  rw [exec_ledSetup hf, ensureSetup_led_of_claims hs hclaims]

/-- The state in which the `k`-th claim, of this line, has failed with this error (R80, 60_exceptions R132). -/
def claimFailed (k : Nat) (line : Line) (e : CollabError) (s : State) : State :=
  { s with
    history := s.history ++ [Event.claim .dat, .claim .clk, .claim .cs].take (k + 1)
    claims := s.claims.skip (k + 1)
    fault := some (.pinClaimFailed line e) }

/-- The claims stop at the first that fails (R80, R87). -/
theorem acquireLed_of_claim_failed {s : State} (hf : s.fault = none) {k : Nat} {line : Line} {e : CollabError}
    (hline : [Line.dat, .clk, .cs][k]? = some line) (hbefore : ∀ j < k, s.claimAt j = .ok) (hfail : s.claimAt k = .error e) :
    acquireLed s = claimFailed k line e s := by
  have hacq := acquireLed_eq s hf
  match k, hline with
  | 0, rfl =>
    rw [hfail] at hacq
    exact hacq
  | 1, rfl =>
    rw [hbefore 0 (by decide), hfail] at hacq
    exact hacq
  | 2, rfl =>
    rw [hbefore 0 (by decide), hbefore 1 (by decide), hfail] at hacq
    exact hacq

section
variable {s : State} {k : Nat} {line : Line} {e : CollabError} (hs : s.LedFresh)
  (hline : [Line.dat, .clk, .cs][k]? = some line) (hbefore : ∀ j < k, s.claimAt j = .ok) (hfail : s.claimAt k = .error e)
include hs hline hbefore hfail

theorem ensureSetup_led_of_claim_failed : ensureSetup .led s = claimFailed k line e s := by
  obtain ⟨hf, hset, hsim⟩ := hs
  have hacq := acquireLed_of_claim_failed hf hline hbefore hfail
  rw [ensureSetup_of_fresh (d := .led) hset hsim, acquire, andThen_of_faulted (by rw [hacq]; nofun), hacq]

theorem showFrame_of_claim_failed : showFrame s = claimFailed k line e s := by
  have hsetup := ensureSetup_led_of_claim_failed hs hline hbefore hfail
  rw [showFrame, andThen_of_faulted (by rw [hsetup]; nofun), hsetup]

end

/-- Settles O23: setting up stops at the failed claim, so `show` sends no frame, nor does `exit` after its `clear`. -/
theorem failedClaimStopsOperation : Obligations.FailedClaimStopsOperation := by
  intro s k line e hs hline hbefore hfail
  have ⟨hf, _, _⟩ := hs
  refine ⟨?_, ?_, clearColours s, exec_of_running hf rfl, ?_⟩
  · rw [exec_ledSetup hf, ensureSetup_led_of_claim_failed hs hline hbefore hfail]
    rfl
  · rw [exec_of_running hf rfl, body, showFrame_of_claim_failed hs hline hbefore hfail]
    rfl
  · have hshow := showFrame_of_claim_failed (s := clearColours s) hs hline hbefore hfail
    rw [exec_of_running hf rfl, body, andThen_of_running (by exact hf), hshow]
    rfl

/-! ## Wire formats set up first -/

/-- Every wire format stands under the guards of its driver (R78, R79; log 2). -/
theorem body_of_wire {i : Instr} (h : i.isHost = false) : ∃ f, body i = onWire i.driver f := by
  cases i with
  | ledSof | ledPixelWord _ _ _ _ | ledEof | i2cData _ | i2cOscOn | i2cBlink _ | i2cDim _ => exact ⟨_, rfl⟩
  | _ => cases h

theorem refusesInstr_of_wire {i : Instr} (h : i.isHost = false) (cfg : Config) : refusesInstr cfg i = false := by
  cases i with
  | dispPrintStr _ _ => cases h
  | _ => rfl

/-- Setting up first changes nothing for an operation that sets up itself (R78). -/
theorem onWire_ensureSetup {d : Driver} {s : State} (h : (ensureSetup d s).fault = none) (f : Op) :
    onWire d f (ensureSetup d s) = onWire d f s := by
  have hagain : ensureSetup d (ensureSetup d s) = ensureSetup d s := ensureSetup_of_setup (ensureSetup_isSetup h)
  rw [onWire, andThen_of_running (by rw [hagain]; exact h), hagain, andThen_of_running h]

/-- Settles O55: a wire format is its emission under the guards of its driver, whatever the emission is. -/
theorem wireUnitsSetUpFirst : Obligations.WireUnitsSetUpFirst := by
  intro s i setup hf hwire hi
  obtain ⟨f, hbody⟩ := body_of_wire hwire
  have run {t : State} (ht : t.fault = none) : exec i t = .next (onWire i.driver f t) := by
    rw [exec_of_running ht (refusesInstr_of_wire hwire _), hbody]
  have hsetup : exec setup s = .next (ensureSetup i.driver s) := by
    rw [hi]
    cases i.driver with
    | led => exact exec_ledSetup hf
    | disp => exact exec_dispSetup hf
  refine ⟨fun hset hsim => ?_, fun u hu => ?_⟩
  · rw [run hf, onWire_of_sim hf hsim, ensureSetup_of_setup hset]
  · obtain rfl : ensureSetup i.driver s = u := Host.Outcome.next.inj (hsetup.symm.trans hu)
    refine ⟨fun hok => ?_, fun hfault => ?_⟩
    · rw [run hf, run hok, onWire_ensureSetup hok]
    · rw [run hf, onWire, andThen_of_faulted hfault]

/-! ## The buffer operations -/

/-- From the first state to the second, only the buffer of the driver and the fault register may have changed. -/
def OnlyBuffer : Driver → State → State → Prop
  | .led, s, t => t = { s with px := t.px, fault := t.fault }
  | .disp, s, t => t = { s with seg := t.seg, fault := t.fault }

theorem OnlyBuffer.refl (d : Driver) (s : State) : OnlyBuffer d s s := by
  cases d <;> rfl

theorem OnlyBuffer.trans {d : Driver} {s t u : State} (h : OnlyBuffer d s t) (h' : OnlyBuffer d t u) : OnlyBuffer d s u := by
  cases d <;> (
    rw [OnlyBuffer] at *
    rw [h', h])

theorem OnlyBuffer.raise (d : Driver) (info : FaultInfo) (s : State) : OnlyBuffer d s (raise info s) := by
  cases d <;> rfl

theorem OnlyBuffer.isSetup {d : Driver} {s t : State} (h : OnlyBuffer d s t) :
    t.led.isSetup = s.led.isSetup ∧ t.disp.isSetup = s.disp.isSetup := by
  cases d <;> (
    rw [OnlyBuffer] at h
    rw [h]
    exact ⟨rfl, rfl⟩)

/-- A statement that changes no more than the buffer of a driver and the fault register. -/
def WritesBuffer (d : Driver) (f : Op) : Prop := ∀ s, OnlyBuffer d s (f s)

namespace WritesBuffer

protected theorem ignore (d : Driver) : WritesBuffer d ignore := OnlyBuffer.refl d

protected theorem andThen {d : Driver} {f g : Op} (hf : WritesBuffer d f) (hg : WritesBuffer d g) :
    WritesBuffer d (andThen f g) := fun s =>
  andThen_induction (P := OnlyBuffer d s) (hf s) fun h => h.trans (hg _)

theorem withPx (f : Vector Pixel 7 → Vector Pixel 7) : WritesBuffer .led fun s => s.withPx (f s.px) := fun _ => rfl

theorem withSeg (f : Vector Byte 8 → Vector Byte 8) : WritesBuffer .disp fun s => s.withSeg (f s.seg) := fun _ => rfl

protected theorem writePixel (index : Nat) (p : Pixel) : WritesBuffer .led (writePixel index p) := fun s => by
  rw [writePixel_eq]
  rfl

protected theorem withLevel (q : Brightness) {op : BitVec 5 → Op} (hop : ∀ level, WritesBuffer .led (op level)) :
    WritesBuffer .led (withLevel q op) := fun s => by
  unfold Machine.withLevel
  split
  · exact hop _ s
  · exact .raise .led _ s

protected theorem setDigitRaw (pos : Int) (mask : BitVec 16) : WritesBuffer .disp (setDigitRaw pos mask) := by
  unfold Machine.setDigitRaw
  split
  · exact .ignore .disp
  · exact withSeg (storeMask · _ mask)

protected theorem setDecimal (pos : Int) (on : Bool) : WritesBuffer .disp (setDecimal pos on) := by
  unfold Machine.setDecimal
  split
  · exact .ignore .disp
  · exact withSeg (storeDecimal · _ on)

protected theorem setDigit (pos : Int) (ch : Char) (dp : Bool) : WritesBuffer .disp (setDigit pos ch dp) := fun s => by
  have hpoint : WritesBuffer .disp (if dp then setDecimal pos true else ignore) := by
    split
    · exact .setDecimal pos true
    · exact .ignore .disp
  unfold Machine.setDigit
  split
  · exact .raise .disp _ s
  · exact WritesBuffer.andThen (.setDigitRaw pos _) hpoint s

protected theorem printFrom (start : Int) (text : List Char) : WritesBuffer .disp (printFrom start text) := by
  induction text generalizing start with
  | nil => exact .ignore .disp
  | cons ch rest ih => exact .andThen (.setDigit start ch false) (ih (start + 1))

/-- The eight buffer operations (R86, 41_led_chain R101, 42_display_controller R109). -/
protected theorem body {i : Instr} (hbuf : isBufferOnly i = true) : WritesBuffer i.driver (body i) := by
  cases i with
  | ledSetPixel index _ _ _ q => exact .withLevel q fun _ => .writePixel index _
  | ledSetAll r g b q => exact .withLevel q fun level => withPx (mapPixels fun _ => { r := r, g := g, b := b, br := level })
  | ledSetBrightness q => exact .withLevel q fun level => withPx (mapPixels ({ · with br := level }))
  | ledClear => exact withPx _
  | dispSetDigitRaw pos mask => exact .setDigitRaw pos mask
  | dispSetDecimal pos on => exact .setDecimal pos on
  | dispSetDigit pos ch dp => exact .setDigit pos ch dp
  | dispPrintStr text jr => exact .printFrom _ text
  | _ => cases hbuf

end WritesBuffer

/-- Settles O27: the body of each of the eight writes the buffer of its driver. -/
theorem bufferOperationsTouchOnlyBuffer : Obligations.BufferOperationsTouchOnlyBuffer := by
  intro i s t hbuf hst
  obtain ⟨-, -, rfl⟩ := exec_eq_next.1 hst
  have h := WritesBuffer.body hbuf s
  constructor <;> (
    intro hd
    rw [hd] at h
    exact h)

/-! ## The operations that set up -/

/-- A statement after which the driver is set up, unless it faults. -/
def SetsUp (d : Driver) (f : Op) : Prop := ∀ s, (f s).fault = none → ((f s).flags d).isSetup = true

namespace SetsUp

protected theorem ensureSetup (d : Driver) : SetsUp d (ensureSetup d) := fun _ => ensureSetup_isSetup

theorem andThen_right {d : Driver} (f : Op) {g : Op} (hg : SetsUp d g) : SetsUp d (andThen f g) := fun s hok => by
  obtain ⟨-, e⟩ | ⟨hfault, e⟩ := andThen_cases f g s <;> rw [e] at hok ⊢
  · exact hg _ hok
  · exact absurd hok hfault

theorem andThen_left {d : Driver} {f g : Op} (hf : SetsUp d f) (hg : ∀ s, (g s).flags d = s.flags d) :
    SetsUp d (andThen f g) := fun s hok => by
  obtain ⟨hrun, e⟩ | ⟨hfault, e⟩ := andThen_cases f g s <;> rw [e] at hok ⊢
  · rw [hg]
    exact hf s hrun
  · exact absurd hok hfault

theorem ifNotSim_flags {d : Driver} {f : Op} (hf : ∀ s, (f s).flags d = s.flags d) (s : State) :
    (ifNotSim d f s).flags d = s.flags d := by
  unfold ifNotSim
  split
  · rfl
  · exact hf s

protected theorem onWire {d : Driver} {f : Op} (hf : ∀ s, (f s).flags d = s.flags d) : SetsUp d (onWire d f) :=
  andThen_left (.ensureSetup d) (ifNotSim_flags hf)

theorem onWire_emit (evs : State → List Event) : SetsUp .led (onWire .led fun s => emit (evs s) s) :=
  .onWire fun s => emit_flags _ s .led

theorem onWire_busWrite (cmd : State → Byte) (payload : State → List Byte) :
    SetsUp .disp (onWire .disp fun s => busWrite (cmd s) (payload s) s) :=
  .onWire fun s => busWrite_flags _ _ s .disp

/-- A setting's operation sets up in either order (42_display_controller R104). -/
theorem setting {store : Op} (hstore : ∀ s, (store s).disp = s.disp ∧ (store s).fault = s.fault) (cmd : State → Byte) :
    SetsUp .disp (andThen (storeAndSetup store) (ifNotSim .disp fun s => sendCmd (cmd s) s)) :=
  andThen_left (fun _ => storeAndSetup_isSetup hstore) (ifNotSim_flags fun s => busWrite_flags _ _ s .disp)

protected theorem setBlink (code : Byte) : SetsUp .disp (setBlink code) := fun s => by
  unfold Machine.setBlink
  split
  · nofun
  · exact setting (store := storeBlink _) (fun _ => ⟨rfl, rfl⟩) _ s

protected theorem setDim (level : Byte) : SetsUp .disp (setDim level) := fun s => by
  unfold Machine.setDim
  split
  · nofun
  · exact setting (store := storeDim _) (fun _ => ⟨rfl, rfl⟩) _ s

/-- Every operation that needs the resource sets it up (R86). -/
protected theorem body {i : Instr} (hneeds : needsResource i = true) : SetsUp i.driver (body i) := by
  cases i with
  | ledSetup => exact .ensureSetup .led
  | dispSetup => exact .ensureSetup .disp
  | ledShow => exact onWire_emit _
  | ledExit => exact andThen_right _ (onWire_emit _)
  | dispSetBlink code => exact .setBlink code
  | dispSetBrightness level => exact .setDim level
  | ledSof | ledPixelWord _ _ _ _ | ledEof => exact onWire_emit _
  | dispWriteDisplay | i2cData _ | i2cOscOn | i2cBlink _ | i2cDim _ => exact onWire_busWrite _ _
  | _ => cases hneeds

end SetsUp

theorem changeSim_isSetup (d : Driver) (v : Bool) (s : State) :
    (changeSim d v s).led.isSetup = s.led.isSetup ∧ (changeSim d v s).disp.isSetup = s.disp.isSetup := by
  unfold changeSim
  split
  · exact ⟨rfl, rfl⟩
  · cases d <;> exact ⟨rfl, rfl⟩

/-- An operation that does not need the resource writes a buffer or a simulation flag, and so changes no `is_setup` flag (R86). -/
theorem body_isSetup {i : Instr} (hneeds : needsResource i = false) (s : State) :
    (body i s).led.isSetup = s.led.isSetup ∧ (body i s).disp.isSetup = s.disp.isSetup := by
  cases hbuf : isBufferOnly i with
  | true => exact (WritesBuffer.body hbuf s).isSetup
  | false =>
    cases i with
    | ledSetSimulation v => exact changeSim_isSetup .led v s
    | dispSetSimulation v => exact changeSim_isSetup .disp v s
    | ledSetPixel _ _ _ _ _ | ledSetAll _ _ _ _ | ledSetBrightness _ | ledClear => cases hbuf
    | dispSetDigitRaw _ _ | dispSetDecimal _ _ | dispSetDigit _ _ _ | dispPrintStr _ _ => cases hbuf
    | _ => cases hneeds

/-- Settles O26: the operations that need the resource set up, and the others leave both flags alone. -/
theorem onlyResourceOperationsSetUp : Obligations.OnlyResourceOperationsSetUp := by
  intro i s t hst
  obtain ⟨-, -, rfl⟩ := exec_eq_next.1 hst
  exact ⟨fun hneeds => SetsUp.body hneeds s, fun hneeds => body_isSetup hneeds s⟩

/-! ## Simulation changes no bookkeeping -/

/-- What a physical run of a driver looks like if it is simulated from the given start: the same bookkeeping, the simulation flag set,
and the calls, their effects and the answers used up left out (R85). -/
def asSimulated (d : Driver) (start u : State) : State :=
  writeSim d true { u with
    lines := start.lines, bus := start.bus, history := start.history
    claims := start.claims, csLevels := start.csLevels, busReplies := start.busReplies }

/-- A physical run of a driver has answers left that succeed: its three claims, if it is not set up, and so many bus calls. -/
structure Supplied (d : Driver) (n : Nat) (u : State) : Prop where
  sim : (u.flags d).sim = false
  claims : (u.flags d).isSetup = false → ∀ k < 3, u.claimAt k = .ok
  replies : ∀ k < n, u.busReplyAt k = .ok

/-- A statement that does the same simulated and physical, where the physical run makes at most so many bus calls, which succeed. -/
def Alike (d : Driver) (start : State) (calls : Nat) (f : Op) : Prop :=
  ∀ n u, u.fault = none → Supplied d (n + calls) u →
    f (asSimulated d start u) = asSimulated d start (f u) ∧ Supplied d n (f u)

section
variable {d : Driver} (start u : State)

theorem asSimulated_fault : (asSimulated d start u).fault = u.fault := by cases d <;> rfl

theorem asSimulated_cfg : (asSimulated d start u).cfg = u.cfg := by cases d <;> rfl

theorem asSimulated_sim : ((asSimulated d start u).flags d).sim = true := by cases d <;> rfl

theorem asSimulated_isSetup : ((asSimulated d start u).flags d).isSetup = (u.flags d).isSetup := by cases d <;> rfl

theorem asSimulated_history : (asSimulated d start u).history = start.history := by cases d <;> rfl

theorem sameBookkeeping_asSimulated : SameBookkeeping (asSimulated d start u) u := by
  cases d <;> exact ⟨rfl, rfl, rfl, rfl, rfl, rfl⟩

theorem asSimulated_writeSim : asSimulated d start (writeSim d false start) = writeSim d true start := by
  cases d <;> rfl

theorem asSimulated_markSetup : asSimulated d start (markSetup d u) = markSetup d (asSimulated d start u) := by
  cases d <;> rfl

end

theorem Supplied.mono {d : Driver} {m n : Nat} {u : State} (h : Supplied d m u) (hn : n ≤ m) : Supplied d n u :=
  { h with replies := fun k hk => h.replies k (hk.trans_le hn) }

theorem Supplied.of_eq {d : Driver} {n : Nat} {u v : State} (h : Supplied d n u) (hflags : v.flags d = u.flags d)
    (hclaims : v.claims = u.claims) (hreplies : v.busReplies = u.busReplies) : Supplied d n v where
  sim := by rw [hflags, h.sim]
  claims := by
    simp only [State.claimAt, hflags, hclaims]
    exact h.claims
  replies := by
    simp only [State.busReplyAt, hreplies]
    exact h.replies

theorem replies_skip {u : State} {m n : Nat} (h : ∀ k < n + m, u.busReplyAt k = .ok) {v : State}
    (hv : v.busReplies = u.busReplies.skip m) : ∀ k < n, v.busReplyAt k = .ok := fun k hk => by
  rw [State.busReplyAt, hv, Draws.nth_skip]
  exact h (m + k) (by omega)

theorem busWrite_of_reply {s : State} (h : s.busReplyAt 0 = .ok) (cmd : Byte) (payload : List Byte) :
    busWrite cmd payload s =
      { s with history := s.history ++ [.write cmd payload], busReplies := s.busReplies.skip 1 } := by
  rw [busWrite_eq, h]

/-- With four bus calls that succeed, `Acquire(disp)` leaves the bus open at 0x70 (42_display_controller R103). -/
theorem acquireDisp_of_replies {s : State} (hf : s.fault = none) (hreplies : ∀ k < 4, s.busReplyAt k = .ok) :
    acquireDisp s = { s with
      bus := .opened 0x70#7, history := s.history ++ setupEvents s.cfg s.ctl, busReplies := s.busReplies.skip 4 } := by
  rw [acquireDisp_eq s hf, hreplies 0 (by decide), hreplies 1 (by decide), hreplies 2 (by decide), hreplies 3 (by decide)]

/-- A first setup whose calls succeed does not fault, changes nothing that the simulated run keeps, and makes at most four bus calls. -/
theorem acquire_of_supplied {d : Driver} (start : State) {n : Nat} {u : State} (hf : u.fault = none)
    (hset : (u.flags d).isSetup = false) (hs : Supplied d (n + 4) u) :
    (acquire d u).fault = none ∧ asSimulated d start (acquire d u) = asSimulated d start u ∧
      Supplied d n (markSetup d (acquire d u)) := by
  cases d with
  | led =>
    rw [acquire, acquireLed_of_claims hf (hs.claims hset)]
    exact ⟨hf, rfl, { sim := hs.sim, claims := nofun, replies := fun k hk => hs.replies k (by omega) }⟩
  | disp =>
    rw [acquire, acquireDisp_of_replies hf fun k hk => hs.replies k (by omega)]
    exact ⟨hf, rfl, { sim := hs.sim, claims := nofun, replies := replies_skip hs.replies rfl }⟩

namespace Alike

variable {d : Driver} {start : State}

theorem mono {k l : Nat} {f : Op} (h : Alike d start k f) (hkl : k ≤ l) : Alike d start l f := fun n u hf hs => by
  obtain ⟨he, hs'⟩ := h (n + (l - k)) u hf (hs.mono (by omega))
  exact ⟨he, hs'.mono (by omega)⟩

protected theorem andThen {k l : Nat} {f g : Op} (hf : Alike d start k f) (hg : Alike d start l g) :
    Alike d start (k + l) (andThen f g) := fun n u hu hs => by
  obtain ⟨he, hs'⟩ := hf (n + l) u hu (hs.mono (by omega))
  obtain ⟨hrun, e⟩ | ⟨hfault, e⟩ := andThen_cases f g u <;> rw [e]
  · rw [andThen_of_running (by rw [he, asSimulated_fault, hrun]), he]
    exact hg n _ hrun hs'
  · rw [andThen_of_faulted (by rwa [he, asSimulated_fault]), he]
    exact ⟨rfl, hs'.mono (by omega)⟩

/-- A statement does the same in both runs if it does what some such statement does, chosen by the parameters. -/
theorem of_chosen {k : Nat} {f : Op} (h : ∀ cfg, ∃ g, Alike d start k g ∧ ∀ u : State, u.cfg = cfg → f u = g u) :
    Alike d start k f := fun n u hf hs => by
  obtain ⟨g, hg, hfg⟩ := h u.cfg
  rw [hfg u rfl, hfg _ (asSimulated_cfg start u)]
  exact hg n u hf hs

/-! ### Statements that write the bookkeeping -/

theorem of_frame {f : Op} (hf : ∀ u, f (asSimulated d start u) = asSimulated d start (f u))
    (hframe : ∀ u, (f u).flags d = u.flags d ∧ (f u).claims = u.claims ∧ (f u).busReplies = u.busReplies) :
    Alike d start 0 f := fun _ u _ hs =>
  have ⟨hflags, hclaims, hreplies⟩ := hframe u
  ⟨hf u, hs.of_eq hflags hclaims hreplies⟩

protected theorem ignore : Alike d start 0 ignore := of_frame (fun _ => rfl) fun _ => ⟨rfl, rfl, rfl⟩

protected theorem raise (info : FaultInfo) : Alike d start 0 (raise info) := by
  cases d <;> exact of_frame (fun _ => rfl) fun _ => ⟨rfl, rfl, rfl⟩

theorem updatePx (f : Vector Pixel 7 → Vector Pixel 7) : Alike d start 0 fun u => u.withPx (f u.px) := by
  cases d <;> exact of_frame (fun _ => rfl) fun _ => ⟨rfl, rfl, rfl⟩

theorem updateSeg (f : Vector Byte 8 → Vector Byte 8) : Alike d start 0 fun u => u.withSeg (f u.seg) := by
  cases d <;> exact of_frame (fun _ => rfl) fun _ => ⟨rfl, rfl, rfl⟩

theorem updateCtl (f : Ctl → Ctl) : Alike d start 0 fun u => u.withCtl (f u.ctl) := by
  cases d <;> exact of_frame (fun _ => rfl) fun _ => ⟨rfl, rfl, rfl⟩

protected theorem writePixel (index : Nat) (p : Pixel) : Alike d start 0 (writePixel index p) := by
  rw [funext (writePixel_eq index p)]
  exact updatePx (·.setIfInBounds index p)

protected theorem withLevel (q : Brightness) {op : BitVec 5 → Op} (hop : ∀ level, Alike d start 0 (op level)) :
    Alike d start 0 (withLevel q op) := of_chosen fun cfg => by
  cases hq : legalBright q with
  | true => exact ⟨_, hop (quant cfg.quant q), fun u hu => by rw [withLevel_of_legal hq, hu]⟩
  | false => exact ⟨_, .raise _, fun u _ => withLevel_of_illegal hq op u⟩

protected theorem setDigitRaw (pos : Int) (mask : BitVec 16) : Alike d start 0 (setDigitRaw pos mask) := by
  unfold Machine.setDigitRaw
  split
  · exact .ignore
  · exact updateSeg (storeMask · _ mask)

protected theorem setDecimal (pos : Int) (on : Bool) : Alike d start 0 (setDecimal pos on) := by
  unfold Machine.setDecimal
  split
  · exact .ignore
  · exact updateSeg (storeDecimal · _ on)

protected theorem setDigit (pos : Int) (ch : Char) (dp : Bool) : Alike d start 0 (setDigit pos ch dp) :=
  of_chosen fun cfg => by
    cases hm : lookup cfg ch with
    | none => exact ⟨_, .raise (.glyphNotFound ch), fun u hu => by simp only [Machine.setDigit, hu, hm]⟩
    | some m =>
      have hpoint : Alike d start 0 (if dp then setDecimal pos true else ignore) := by
        split
        · exact .setDecimal pos true
        · exact .ignore
      exact ⟨_, .andThen (.setDigitRaw pos m) hpoint, fun u hu => by simp only [Machine.setDigit, hu, hm]⟩

protected theorem printFrom (first : Int) (text : List Char) : Alike d start 0 (printFrom first text) := by
  induction text generalizing first with
  | nil => exact .ignore
  | cons ch rest ih => exact .andThen (.setDigit first ch false) (ih (first + 1))

/-! ### Setting up and calls -/

/-- Setting up with every call succeeding ends, but for the calls, as setting up in simulation does (R78, R80). -/
protected theorem ensureSetup : Alike d start 4 (ensureSetup d) := fun n u hf hs => by
  cases hset : (u.flags d).isSetup with
  | true =>
    rw [ensureSetup_of_setup hset, ensureSetup_of_setup (by rw [asSimulated_isSetup, hset])]
    exact ⟨rfl, hs.mono (by omega)⟩
  | false =>
    have ⟨hrun, hbook, hreplies⟩ := acquire_of_supplied start hf hset hs
    rw [ensureSetup_of_sim (by rw [asSimulated_fault, hf]) (by rw [asSimulated_isSetup, hset]) (asSimulated_sim start u),
      ensureSetup_of_fresh hset hs.sim, andThen_of_running hrun, asSimulated_markSetup, hbook]
    exact ⟨rfl, hreplies⟩

/-- A call is left out in simulation (R79), and physical it changes nothing that the simulated run keeps. -/
theorem ifNotSim_of_call {k : Nat} {f : Op}
    (hf : ∀ n u, Supplied d (n + k) u → asSimulated d start (f u) = asSimulated d start u ∧ Supplied d n (f u)) :
    Alike d start k (ifNotSim d f) := fun n u _ hs => by
  obtain ⟨hbook, hs'⟩ := hf n u hs
  rw [ifNotSim_of_sim (asSimulated_sim start u), ifNotSim_of_not_sim hs.sim]
  exact ⟨hbook.symm, hs'⟩

theorem ifNotSim_emit (evs : State → List Event) : Alike .led start 0 (ifNotSim .led fun u => emit (evs u) u) :=
  ifNotSim_of_call fun _ _ hs => ⟨rfl, hs.of_eq rfl rfl rfl⟩

theorem ifNotSim_busWrite (cmd : State → Byte) (payload : State → List Byte) :
    Alike .disp start 1 (ifNotSim .disp fun u => busWrite (cmd u) (payload u) u) :=
  ifNotSim_of_call fun _ u hs => by
    rw [busWrite_of_reply (hs.replies 0 (by omega))]
    exact ⟨rfl, { sim := hs.sim, claims := hs.claims, replies := replies_skip hs.replies rfl }⟩

protected theorem showFrame : Alike .led start 4 showFrame := .andThen .ensureSetup (ifNotSim_emit _)

protected theorem flushBuffer : Alike .disp start 5 flushBuffer := .andThen .ensureSetup (ifNotSim_busWrite _ _)

protected theorem storeAndSetup {store : Op} (hstore : Alike .disp start 0 store) :
    Alike .disp start 4 (storeAndSetup store) := of_chosen fun cfg => by
  cases ho : cfg.ctlOrder with
  | storeFirst => exact ⟨_, hstore.andThen .ensureSetup, fun u hu => by simp only [Machine.storeAndSetup, hu, ho]⟩
  | setupFirst => exact ⟨_, Alike.ensureSetup.andThen hstore, fun u hu => by simp only [Machine.storeAndSetup, hu, ho]⟩

theorem setting {store : Op} (hstore : Alike .disp start 0 store) (cmd : State → Byte) :
    Alike .disp start 5 (andThen (storeAndSetup store) (ifNotSim .disp fun u => sendCmd (cmd u) u)) :=
  .andThen (.storeAndSetup hstore) (ifNotSim_busWrite cmd fun _ => [])

protected theorem setBlink (code : Byte) : Alike .disp start 5 (setBlink code) := of_chosen fun cfg => by
  cases hc : blinkDecode cfg code with
  | none =>
    exact ⟨_, Alike.raise (.blinkUnsupported code) |>.mono (by decide), fun u hu => by
      simp only [Machine.setBlink, hu, hc]⟩
  | some f =>
    exact ⟨_, setting (updateCtl ({ · with blink := f })) fun u => blinkCmd u.cfg f, fun u hu => by
      simp only [Machine.setBlink, hu, hc]
      rfl⟩

protected theorem setDim (level : Byte) : Alike .disp start 5 (setDim level) := by
  unfold Machine.setDim
  split
  · exact Alike.raise _ |>.mono (by decide)
  · exact setting (updateCtl ({ · with br := level.extractLsb' 0 4 })) _

/-- Every host operation but `SET_SIMULATION` does the same in both runs, with five bus calls at most (R85). -/
protected theorem body {i : Instr} (hhost : i.isHost = true) (hset : isSetSimulation i = false) :
    Alike i.driver start 5 (body i) := by
  have callFree {d : Driver} {f : Op} (h : Alike d start 0 f) : Alike d start 5 f := h.mono (by decide)
  cases i with
  | ledSetup | dispSetup => exact Alike.ensureSetup.mono (by decide)
  | ledSetPixel index _ _ _ q => exact callFree (.withLevel q fun _ => .writePixel index _)
  | ledSetAll r g b q =>
    exact callFree (.withLevel q fun level => updatePx (mapPixels fun _ => { r := r, g := g, b := b, br := level }))
  | ledSetBrightness q => exact callFree (.withLevel q fun level => updatePx (mapPixels ({ · with br := level })))
  | ledClear => exact callFree (updatePx _)
  | ledShow => exact Alike.showFrame.mono (by decide)
  | ledExit => exact (Alike.andThen (updatePx _) .showFrame).mono (by decide)
  | dispSetBlink code => exact .setBlink code
  | dispSetBrightness level => exact .setDim level
  | dispWriteDisplay => exact .flushBuffer
  | dispSetDigitRaw pos mask => exact callFree (.setDigitRaw pos mask)
  | dispSetDecimal pos on => exact callFree (.setDecimal pos on)
  | dispSetDigit pos ch dp => exact callFree (.setDigit pos ch dp)
  | dispPrintStr text jr => exact callFree (.printFrom _ text)
  | ledSetSimulation _ | dispSetSimulation _ => cases hset
  | ledSof | ledPixelWord _ _ _ _ | ledEof | i2cData _ | i2cOscOn | i2cBlink _ | i2cDim _ => cases hhost

end Alike

theorem sameOutcome_mono {rel rel' : State → State → Prop} (h : ∀ t u, rel t u → rel' t u)
    {o o' : Host.Outcome State Fault Refusal} (ho : SameOutcome rel o o') : SameOutcome rel' o o' := by
  cases o with
  | next t =>
    cases o' with
    | next u => exact h t u ho
    | _ => exact ho
  | _ => cases o' <;> exact ho

/-- A simulated run ends as the physical run with every call succeeding ends, but for the calls (R85). -/
theorem execAll_asSimulated {d : Driver} (start : State) {ops : List Instr}
    (hops : ∀ i ∈ ops, i.isHost = true ∧ i.driver = d ∧ isSetSimulation i = false) {u : State}
    (hs : Supplied d (5 * ops.length) u) :
    SameOutcome (fun t v => t = asSimulated d start v) (execAll ops (asSimulated d start u)) (execAll ops u) := by
  induction ops generalizing u with
  | nil => rfl
  | cons i ops ih =>
    obtain ⟨⟨hhost, hdriver, hset⟩, hrest⟩ := List.forall_mem_cons.1 hops
    have hfault := asSimulated_fault (d := d) start u
    have hcfg := asSimulated_cfg (d := d) start u
    simp only [execAll]
    cases hf : u.fault with
    | some info =>
      rw [exec_of_faulted hf, exec_of_faulted (hfault.trans hf)]
      rfl
    | none =>
      cases hr : refusesInstr u.cfg i with
      | true =>
        rw [exec_of_refused hf hr, exec_of_refused (hfault.trans hf) (by rw [hcfg, hr])]
        rfl
      | false =>
        rw [exec_of_running hf hr, exec_of_running (hfault.trans hf) (by rw [hcfg, hr])]
        obtain ⟨hbody, hs'⟩ := (hdriver ▸ Alike.body hhost hset) (5 * ops.length) u hf hs
        dsimp only
        rw [hbody]
        exact ih hrest hs'

/-- Settles O28: a simulated run is the physical run's bookkeeping with the calls left out. -/
theorem simulationInvariance : Obligations.SimulationInvariance := by
  intro d ops s hops hcalls
  obtain ⟨hclaims, hreplies⟩ := hcalls
  have hs : Supplied d (5 * ops.length) (writeSim d false s) :=
    { sim := by cases d <;> rfl, claims := fun _ => hclaims, replies := hreplies }
  rw [← asSimulated_writeSim]
  refine sameOutcome_mono ?_ (execAll_asSimulated s hops hs)
  rintro _ u rfl
  exact ⟨sameBookkeeping_asSimulated s u, asSimulated_history s u⟩

end Sys2Proof.Machine
end

section
/-! The LED chain statements (spec/41_led_chain.md): the brightness operand and its quantizer (R88, R89), the buffer operations (R90 to
R93), the frame (R94 to R97), and `show` and `exit`, which send it (R95, R98). -/

namespace Sys2Proof.Machine

/-! ## The brightness operand -/

/-- A brightness is legal exactly when it is a rational in the unit interval (R89). -/
theorem legalBright_iff {q : Brightness} :
    legalBright q = true ↔ ∃ (num : Int) (den : Nat), brightValue q = some (num, den) ∧
      (0 : ℚ) ≤ (num : ℚ) / (den : ℚ) ∧ (num : ℚ) / (den : ℚ) ≤ 1 := by
  have unit {num : Int} {den : Nat} (h : brightValue q = some (num, den)) :
      legalBright q = true ↔ (0 : ℚ) ≤ (num : ℚ) / (den : ℚ) ∧ (num : ℚ) / (den : ℚ) ≤ 1 := by
    have hden : (0 : ℚ) < den := Nat.cast_pos.2 (brightValue_den_pos h)
    rw [legalBright_eq h, le_div_iff₀ hden, zero_mul, div_le_one hden]
    norm_cast
  constructor
  · intro hq
    cases h : brightValue q with
    | none => simp [legalBright, h] at hq
    | some v => exact ⟨v.1, v.2, rfl, (unit h).1 hq⟩
  · rintro ⟨num, den, h, hunit⟩
    exact (unit h).2 hunit

/-- A binary64 NaN or infinity, whose exponent field is all ones, is no legal brightness (R89; log 12). -/
theorem legalBright_of_not_finite {bits : BitVec 64} (h : bits.extractLsb' 52 11 = 0x7FF#11) :
    legalBright (.f64 bits) = false := by
  have hvalue : brightValue (.f64 bits) = none := by
    simp [brightValue, binary64Value, h]
  simp only [legalBright, hvalue]

/-- An illegal brightness faults in each operation that takes one, with nothing else written (R89). -/
theorem exec_of_illegalBright {s : State} {q : Brightness} {i : Instr} (hf : s.fault = none) (hq : legalBright q = false)
    (hi : (∃ index r g b, i = .ledSetPixel index r g b q) ∨ (∃ r g b, i = .ledSetAll r g b q) ∨ i = .ledSetBrightness q) :
    exec i s = .next { s with fault := some (.ledBrightnessRange q) } := by
  obtain ⟨index, r, g, b, rfl⟩ | ⟨r, g, b, rfl⟩ | rfl := hi <;> (
    rw [exec_of_running hf rfl, body, withLevel_of_illegal hq]
    rfl)

/-- Settles O35: legality is the unit interval, and `withLevel` looks at it before any write. -/
theorem legalBrightnessIsUnitInterval : Obligations.LegalBrightnessIsUnitInterval :=
  ⟨fun _ => legalBright_iff, fun _ => legalBright_of_not_finite, fun _ _ _ => exec_of_illegalBright⟩

/-! ## The exact quantizer -/

/-- `roundHalfUp` is the floor of the quotient plus one half (92_eei_decisions D3). -/
theorem roundHalfUp_eq_floor {d : Nat} (hd : 0 < d) (n : Nat) : (roundHalfUp n d : Int) = ⌊(n : ℚ) / d + 1 / 2⌋ := by
  have hsum : (n : ℚ) / d + 1 / 2 = ((2 * n + d : Nat) : ℚ) / ((2 * d : Nat) : ℚ) := by
    have hd' : (d : ℚ) ≠ 0 := Nat.cast_ne_zero.2 hd.ne'
    push_cast
    field_simp
  rw [hsum, Rat.floor_natCast_div_natCast, roundHalfUp]
  norm_cast

theorem roundHalfUp_le {n d k : Nat} (hd : 0 < d) (h : n ≤ k * d) : roundHalfUp n d ≤ k := by
  rw [roundHalfUp, ← Nat.lt_succ_iff, Nat.div_lt_iff_lt_mul (by omega)]
  calc 2 * n + d ≤ 2 * (k * d) + d := by omega
    _ < (k + 1) * (2 * d) := by linarith

theorem roundHalfUp_mul_right {d : Nat} (hd : 0 < d) (k : Nat) : roundHalfUp (k * d) d = k :=
  Nat.div_eq_of_lt_le (by linarith) (by linarith)

theorem quantExact_le {n d : Nat} (hd : 0 < d) (h : n ≤ d) : quantExact n d ≤ 31 :=
  roundHalfUp_le hd (Nat.mul_le_mul_left 31 h)

/-- Settles O33: the level is at most 31, so the field holds it whole, and it is `roundHalfUp`. -/
theorem quantizerIsExactRounding : Obligations.QuantizerIsExactRounding := by
  intro q num den hvalue hlegal
  have hden := brightValue_den_pos hvalue
  obtain ⟨hnum, hle⟩ := (legalBright_eq hvalue).1 hlegal
  obtain ⟨n, rfl⟩ := Int.eq_ofNat_of_zero_le hnum
  have hlevel : quantExact n den ≤ 31 := quantExact_le hden (Int.ofNat_le.1 hle)
  have hfloor : (quantExact n den : Int) = ⌊(31 * (((n : Int) : ℚ) / (den : ℚ)) + 1 / 2 : ℚ)⌋ := by
    rw [quantExact, roundHalfUp_eq_floor hden, Nat.cast_mul, mul_div_assoc, Int.cast_natCast]
    rfl
  rw [← hfloor, quant_exact_eq hvalue, Int.toNat_natCast, BitVec.toNat_ofNat, Nat.mod_eq_of_lt (by omega)]
  exact ⟨rfl, Int.ofNat_le.2 hlevel⟩

/-! ## The binary64 quantizer -/

theorem roundHalfEven_mul_right {d : Nat} (hd : 0 < d) (k : Nat) : roundHalfEven (k * d) d = k := by
  simp [roundHalfEven, hd]

/-- The binary64 number nearest to a quotient is the quotient scaled by some power of 2, rounded there (92_eei_decisions D4). Which
power plays no part in the bounds. -/
theorem fl_eq {d : Nat} (hd : 0 < d) (n : Nat) : ∃ k, fl n d = (roundHalfEven (n * 2 ^ k) d, 2 ^ k) := by
  by_cases hn : n = 0
  · subst hn
    exact ⟨0, by simp [fl, roundHalfEven, hd]⟩
  · exact ⟨_, if_neg hn⟩

theorem fl_den_pos {d : Nat} (hd : 0 < d) (n : Nat) : 0 < (fl n d).2 := by
  obtain ⟨k, hk⟩ := fl_eq hd n
  rw [hk]
  exact Nat.two_pow_pos k

/-- Rounding in binary64 does not go past a whole number. -/
theorem fl_le {n d c : Nat} (hd : 0 < d) (h : n ≤ c * d) : (fl n d).1 ≤ c * (fl n d).2 := by
  obtain ⟨k, hk⟩ := fl_eq hd n
  rw [hk]
  refine roundHalfEven_le hd ?_
  calc n * 2 ^ k ≤ c * d * 2 ^ k := Nat.mul_le_mul_right _ h
    _ = c * 2 ^ k * d := Nat.mul_right_comm c d _

/-- Rounding in binary64 leaves a whole number as it is. -/
theorem fl_mul_right {d : Nat} (hd : 0 < d) (c : Nat) : (fl (c * d) d).1 = c * (fl (c * d) d).2 := by
  obtain ⟨k, hk⟩ := fl_eq hd (c * d)
  rw [hk, Nat.mul_right_comm c d, roundHalfEven_mul_right hd]

theorem quantBinary64_le {n d : Nat} (hd : 0 < d) (h : n ≤ d) : quantBinary64 n d ≤ 31 := by
  have hb : (fl n d).1 ≤ 1 * (fl n d).2 := fl_le hd (by omega)
  have hden := fl_den_pos hd n
  exact roundHalfUp_le (fl_den_pos hden _) (fl_le hden (by omega))

/-- A brightness that is a whole number passes through both roundings unchanged. -/
theorem quantBinary64_mul_right {d : Nat} (hd : 0 < d) (c : Nat) : quantBinary64 (c * d) d = 31 * c := by
  have hden := fl_den_pos hd (c * d)
  rw [quantBinary64, fl_mul_right hd c, ← Nat.mul_assoc, fl_mul_right hden, roundHalfUp_mul_right (fl_den_pos hden _)]

/-- Settles O34: neither rounding goes past a whole number, and each leaves one as it is. -/
theorem binaryQuantizerFitsFiveBits : Obligations.BinaryQuantizerFitsFiveBits := by
  refine ⟨fun _ _ => quantBinary64_le, fun den hden => ⟨?_, ?_⟩⟩
  · simpa using quantBinary64_mul_right hden 0
  · simpa using quantBinary64_mul_right hden 1

/-! ## The buffer operations -/

/-- Settles O29: a legal brightness writes the record in bounds. -/
theorem setPixelWritesOneRecord : Obligations.SetPixelWritesOneRecord := by
  intro s index r g b q hf
  have run (hq : legalBright q = true) :
      exec (.ledSetPixel index r g b q) s = .next (s.withPx (s.px.setIfInBounds index ⟨r, g, b, quant s.cfg.quant q⟩)) := by
    rw [exec_of_running hf rfl, body_ledSetPixel_of_legal hq]
  refine ⟨fun hq _ => ⟨_, run hq, rfl, fun j hj => ?_⟩, fun hq hindex => ?_,
    fun hq => exec_of_illegalBright hf hq (.inl ⟨index, r, g, b, rfl⟩)⟩
  · rw [State.withPx_px, Vector.getElem_setIfInBounds]
    simp only [eq_comm]
  · rw [run hq, Vector.setIfInBounds_eq_of_size_le hindex, State.withPx_self]

/-- Settles O30: a legal brightness maps every record to the same one. -/
theorem setAllWritesEveryRecord : Obligations.SetAllWritesEveryRecord := by
  intro s r g b q hf
  refine ⟨fun hq => ⟨_, exec_of_running hf rfl, ?_⟩, fun hq => exec_of_illegalBright hf hq (.inr (.inl ⟨r, g, b, rfl⟩))⟩
  rw [body, withLevel_of_legal hq]
  exact ⟨rfl, fun j hj => mapPixels_get _ _ j hj⟩

/-- Settles O31: a legal brightness maps every record to itself with the level written. -/
theorem setBrightnessWritesOnlyLevels : Obligations.SetBrightnessWritesOnlyLevels := by
  intro s q hf
  refine ⟨fun hq => ⟨_, exec_of_running hf rfl, ?_⟩, fun hq => exec_of_illegalBright hf hq (.inr (.inr rfl))⟩
  rw [body, withLevel_of_legal hq]
  exact ⟨rfl, fun j hj => mapPixels_get _ _ j hj⟩

/-- What clearing leaves of each record: its level (R93). -/
theorem clearColours_get (s : State) (j : Nat) (hj : j < 7) :
    (clearColours s).px[j] = { r := 0#8, g := 0#8, b := 0#8, br := s.px[j].br } :=
  mapPixels_get _ _ j hj

theorem exec_ledClear {s : State} (hf : s.fault = none) : exec .ledClear s = .next (clearColours s) :=
  exec_of_running hf rfl

/-- Settles O32: clearing maps every record to the dark one of its level. -/
theorem clearKeepsLevels : Obligations.ClearKeepsLevels := fun s hf =>
  ⟨clearColours s, exec_ledClear hf, rfl, clearColours_get s⟩

/-! ## The frame -/

theorem pixels_bits_length (px : Vector Pixel 7) : (px.toList.flatMap pixelBits).length = 224 := by
  rw [flatMap_pixelBits_length, Vector.length_toList]

theorem frameBits_length (px : Vector Pixel 7) : (frameBits px).length = 292 := by
  rw [frameBits_eq, List.length_append, List.length_append, pixels_bits_length, List.length_replicate, List.length_replicate]

theorem frameBits_take_sof (px : Vector Pixel 7) : (frameBits px).take 32 = List.replicate 32 false := by
  rw [frameBits_eq, List.append_assoc, List.take_left' List.length_replicate]

theorem frameBits_drop_eof (px : Vector Pixel 7) : (frameBits px).drop 256 = List.replicate 36 false := by
  rw [frameBits_eq]
  exact List.drop_left' (by rw [List.length_append, List.length_replicate, pixels_bits_length])

theorem frameBits_pixel (px : Vector Pixel 7) {k : Nat} (h : k < 7) :
    ((frameBits px).drop (32 + 32 * k)).take 32 = pixelBits px[k] := by
  obtain ⟨rest, hrest⟩ := frameBits_drop px h
  rw [hrest, List.take_left' (pixelBits_length _)]

/-- Settles O40: the start of frame, each pixel's four bytes, and the end of frame, each where its length puts it. -/
theorem frameBitsLayout : Obligations.FrameBitsLayout :=
  ⟨fun px => ⟨frameBits_length px, frameBits_take_sof px, fun _ h => frameBits_pixel px h, frameBits_drop_eof px⟩,
    fun _ => rfl⟩

/-- A frame ends with a zero bit, the last of its end of frame (30_encoding R63). -/
theorem frameBits_eq_concat (px : Vector Pixel 7) : ∃ bits, frameBits px = bits ++ [false] :=
  ⟨_, (List.append_assoc _ (List.replicate 35 false) [false]).symm⟩

/-- A frame leaves DAT and CLK low and CS inactive, wherever the lines were (R95). -/
theorem lines_after_frame (active : Level) (px : Vector Pixel 7) (l : Lines) :
    (frameEvents active px).foldl Lines.after l = { dat := .driven .low, clk := .driven .low, cs := .driven active.not } := by
  obtain ⟨bits, hbits⟩ := frameBits_eq_concat px
  rw [frameEvents_eq, List.foldl_append, List.foldl_append, hbits, lines_after_bits]
  rfl

/-- A frame is CS asserted, five events a bit, CS deasserted: 1462 events (R95). -/
theorem frameEvents_length (active : Level) (px : Vector Pixel 7) : (frameEvents active px).length = 1462 := by
  simp [frameEvents_eq, bitsEvents_length, frameBits_length]

theorem count_settle_bitsEvents (bits : List Bool) : (bitsEvents bits).count .settle = 2 * bits.length := by
  induction bits with
  | nil => rfl
  | cons b bs ih =>
    rw [bitsEvents, List.flatMap_cons, List.count_append, ← bitsEvents, ih]
    simp [bitEvents]
    omega

/-- Each bit of a frame waits twice (R94, 70_reset_and_hazards R158). -/
theorem settleTime_frameEvents (cfg : Config) (active : Level) (px : Vector Pixel 7) :
    settleTime cfg (frameEvents active px) = 292 * 2 * cfg.tSettle := by
  simp [settleTime, frameEvents_eq, count_settle_bitsEvents, frameBits_length, Nat.mul_comm]

theorem sampledStreams_frameEvents (active : Level) (px : Vector Pixel 7) :
    sampledStreams active (frameEvents active px) = [frameBits px] := by
  rw [frameEvents_eq, sampledStreams_segment]

/-! ## Showing the buffer -/

/-- The state after one frame of the buffer (R95). -/
def frameSent (s : State) : State :=
  { s with
    lines := { dat := .driven .low, clk := .driven .low, cs := .driven s.cfg.csActive.not }
    history := s.history ++ frameEvents s.cfg.csActive s.px }

theorem emit_frameEvents (s : State) : emit (frameEvents s.cfg.csActive s.px) s = frameSent s := by
  rw [emit_frame, lines_after_frame, frameSent]

/-- `show` sets up, and sends a frame exactly if that did not fault and the driver is not simulated (R95). -/
theorem showFrame_eq (s : State) :
    showFrame s =
      if (ensureSetup .led s).fault = none ∧ (ensureSetup .led s).led.sim = false then frameSent (ensureSetup .led s)
      else ensureSetup .led s := by
  rw [showFrame, andThen_setup_ifNotSim, emit_frameEvents]

theorem exec_ledShow {s : State} (hf : s.fault = none) : exec .ledShow s = .next (showFrame s) :=
  exec_of_running hf rfl

theorem showFrame_of_ready {s : State} (hs : s.LedReady) : showFrame s = frameSent s := by
  obtain ⟨hf, hset, hsim⟩ := hs
  rw [showFrame_eq, ensureSetup_of_setup (d := .led) hset, if_pos ⟨hf, hsim⟩]

/-- Settles O37: `frameEvents_eq` is the frame as the rule lists it, and `showFrame_eq` says when it is sent. -/
theorem showSetsUpThenSends : Obligations.ShowSetsUpThenSends := by
  intro s hf frame sent
  have hframe (u : State) : frame u = frameEvents u.cfg.csActive u.px := (frameEvents_eq _ _).symm
  have hsent (u : State) : sent u = frameSent u := by rw [frameSent, ← hframe]
  refine ⟨fun hs => ?_, ⟨_, exec_ledSetup hf, ?_⟩, ?_, ?_⟩
  · rw [exec_ledShow hf, showFrame_of_ready hs, hsent]
  · rw [exec_ledShow hf, showFrame_eq, hsent]
  · rw [hframe, frameEvents_length]
  · rw [hframe, settleTime_frameEvents]

/-- Settles O38: a first setup whose claims succeed leaves the driver ready. -/
theorem firstShowClaimsThenSends : Obligations.FirstShowClaimsThenSends := by
  intro s hs hclaims
  have ⟨hf, _, _⟩ := hs
  rw [exec_ledShow hf, showFrame_eq, ensureSetup_led_of_claims hs hclaims, if_pos ⟨hf, rfl⟩]
  rfl

/-! ### The segment that `show` appends -/

/-- Setting up the LED driver appends claims and nothing else (40_lifecycle R78, R80). -/
theorem ensureSetup_led_history {s : State} (hf : s.fault = none) :
    ∃ lines : List Line, (ensureSetup .led s).history = s.history ++ lines.map Event.claim := by
  have hacq : ∃ lines : List Line, (acquireLed s).history = s.history ++ lines.map Event.claim := by
    rw [acquireLed_eq s hf]
    split
    · exact ⟨[.dat], rfl⟩
    · exact ⟨[.dat, .clk], rfl⟩
    · exact ⟨[.dat, .clk, .cs], rfl⟩
    · exact ⟨[.dat, .clk, .cs], rfl⟩
  rw [ensureSetup_led_eq s hf]
  split
  · exact ⟨[], (List.append_nil _).symm⟩
  · split
    · exact ⟨[], (List.append_nil _).symm⟩
    · exact andThen_induction (P := fun t => ∃ lines : List Line, t.history = s.history ++ lines.map Event.claim) hacq id

/-- An observer of the LED wires does not see claims (R97). -/
theorem see_claims (active : Level) (lines : List Line) (o : Sampler) :
    (lines.map Event.claim).foldl (Sampler.see active) o = o := by
  induction lines with
  | nil => rfl
  | cons line lines ih => exact ih

theorem sampledStreams_claims_append (active : Level) (lines : List Line) (evs : List Event) :
    sampledStreams active (lines.map Event.claim ++ evs) = sampledStreams active evs := by
  rw [sampledStreams, observe, List.foldl_append, see_claims, sampledStreams, observe]

/-- Settles O36: setting up appends claims, which are not seen, and the frame is one segment. -/
theorem showAppendsOneFrame : Obligations.ShowAppendsOneFrame := by
  intro s t hf hsim hst ht
  obtain rfl : showFrame s = t := Host.Outcome.next.inj ((exec_ledShow hf).symm.trans hst)
  have hsim' : (ensureSetup .led s).led.sim = false := (ensureSetup_sim .led hf).trans hsim
  have hrun : (ensureSetup .led s).fault = none := by
    by_contra hfault
    rw [showFrame_eq, if_neg fun h => hfault h.1] at ht
    exact hfault ht
  obtain ⟨lines, hlines⟩ := ensureSetup_led_history hf
  obtain ⟨hcfg, hpx, -, -⟩ := Sends.ensureSetup .led s
  refine ⟨lines.map Event.claim ++ frameEvents s.cfg.csActive s.px, ?_, ?_⟩
  · rw [showFrame_eq, if_pos ⟨hrun, hsim'⟩, frameSent, hlines, hcfg, hpx, List.append_assoc]
  · rw [sampledStreams_claims_append, sampledStreams_frameEvents]

/-! ### `exit` -/

/-- `exit` is `clear`, which does not fault, and then `show` (R98). -/
theorem exec_ledExit {s : State} (hf : s.fault = none) : exec .ledExit s = exec .ledShow (clearColours s) := by
  rw [exec_of_running hf rfl, exec_ledShow (s := clearColours s) hf, body, andThen_of_running (by exact hf)]

/-- Settles O39: on a driver that is physically set up, `exit` sends the frame of the cleared buffer. -/
theorem exitSendsDarkFrame : Obligations.ExitSendsDarkFrame := by
  refine ⟨fun s hf => ⟨_, exec_ledClear hf, exec_ledExit hf⟩, fun s hs => ?_⟩
  have ⟨hf, _, _⟩ := hs
  have hready : (clearColours s).LedReady := hs
  refine ⟨frameSent (clearColours s), frameEvents s.cfg.csActive (clearColours s).px, ?_, rfl, rfl,
    sampledStreams_frameEvents _ _, clearColours_get s⟩
  rw [exec_ledExit hf, exec_ledShow (s := clearColours s) hf, showFrame_of_ready hready]

/-! ### `show` by its wire units -/

/-- After instructions that end in a next state, the rest runs from there. -/
theorem execAll_append_of_next {is js : List Instr} {s t : State} (h : execAll is s = .next t) :
    execAll (is ++ js) s = execAll js t := by
  induction is generalizing s with
  | nil =>
    cases h
    rfl
  | cons i is ih =>
    rw [execAll] at h
    rw [List.cons_append, execAll]
    cases he : exec i s with
    | next u =>
      rw [he] at h
      exact ih h
    | fault _ | refused _ =>
      rw [he] at h
      cases h

/-- Run on a LED driver that is physically set up, the instructions perform the events and do nothing else. -/
def Performs (is : List Instr) (evs : List Event) : Prop := ∀ s : State, s.LedReady → execAll is s = .next (emit evs s)

namespace Performs

theorem nil : Performs [] [] := fun s _ => by rw [execAll, emit_nil]

theorem append {is js : List Instr} {xs ys : List Event} (hx : Performs is xs) (hy : Performs js ys) :
    Performs (is ++ js) (xs ++ ys) := fun s hs => by
  rw [execAll_append_of_next (hx s hs), emit_append]
  exact hy (emit xs s) hs

theorem unit {i : Instr} {evs : List Event} (hi : ∀ cfg, refusesInstr cfg i = false)
    (hbody : body i = onWire .led (emit evs)) : Performs [i] evs := fun s hs => by
  obtain ⟨hf, hset, hsim⟩ := hs
  rw [execAll, exec_of_running hf (hi _), hbody, onWire_of_ready (d := .led) hf hset hsim]
  rfl

theorem pixelWords (ps : List Pixel) :
    Performs (ps.map fun p => .ledPixelWord p.br p.b p.g p.r) (ps.flatMap fun p => pixelWordEvents p.br p.b p.g p.r) := by
  induction ps with
  | nil => exact nil
  | cons p ps ih => exact (unit (fun _ => rfl) rfl).append ih

/-- The start of frame, the words of the pixels and the end of frame (30_encoding R59). -/
theorem frameUnits (px : Vector Pixel 7) :
    Performs (.ledSof :: (px.toList.map fun p => .ledPixelWord p.br p.b p.g p.r) ++ [.ledEof])
      (sofEvents ++ pixelsEvents px ++ eofEvents) :=
  ((unit (i := .ledSof) (fun _ => rfl) rfl).append (pixelWords px.toList)).append (unit (fun _ => rfl) rfl)

end Performs

/-- Settles O56: a frame is its units between the two writes of CS, and both operations of the second clause flush the buffer. -/
theorem showIsItsWireUnits : Obligations.ShowIsItsWireUnits := by
  refine ⟨fun s hs => ⟨_, Performs.frameUnits s.px (pinWrite .cs s.cfg.csActive s) hs, ?_⟩, fun _ _ => rfl⟩
  have ⟨hf, _, _⟩ := hs
  rw [exec_ledShow hf, showFrame_of_ready hs, ← emit_frameEvents, pinWrite, pinWrite, ← emit_append, ← emit_append]
  simp only [frameEvents, List.append_assoc]

end Sys2Proof.Machine
end

section
/-! The display controller statements (spec/42_display_controller.md): setting up (R103), the two settings (R104 to R106), flushing the
buffer (R107), and that the controller has been told the stored settings (R108). -/

namespace Sys2Proof.Machine

/-! ## Sequences -/

theorem andThen_eq_ite (f g : Op) (s : State) : andThen f g s = if (f s).fault = none then g (f s) else f s := by
  obtain ⟨h, e⟩ | ⟨h, e⟩ := andThen_cases f g s
  · rw [e, if_pos h]
  · rw [e, if_neg h]

/-! ## Setting up -/

/-- The state after a first physical setup whose calls all succeed (R103, 40_lifecycle R84). -/
def dispSetUp (s : State) : State :=
  { s with
    disp := { isSetup := true, sim := false }
    ctl := { s.ctl with initialized := true }
    bus := .opened 0x70#7
    history := s.history ++ setupEvents s.cfg s.ctl
    busReplies := s.busReplies.skip 4 }

theorem ensureSetup_disp_of_replies {s : State} (hs : s.DispFresh) (hreplies : ∀ k < 4, s.busReplyAt k = .ok) :
    ensureSetup .disp s = dispSetUp s := by
  obtain ⟨hf, hset, hsim⟩ := hs
  have hacq := acquireDisp_of_replies hf hreplies
  rw [ensureSetup_of_fresh (d := .disp) hset hsim, acquire, andThen_of_running (by rw [hacq]; exact hf), hacq, dispSetUp, ← hsim]
  rfl

/-- Settles O24: `ensureSetup_disp_of_replies` is the body of `DISP.SETUP`. -/
theorem dispSetupSequence : Obligations.DispSetupSequence := by
  intro s hs hreplies
  have ⟨hf, _, _⟩ := hs
  rw [exec_dispSetup hf, ensureSetup_disp_of_replies hs hreplies]
  rfl

/-! ### A setup that fails -/

/-- The state in which the bus did not open (R103, 60_exceptions R132). -/
def busOpenFailed (e : CollabError) (s : State) : State :=
  { s with history := s.history ++ [.busOpen], busReplies := s.busReplies.skip 1, fault := some (.busOpenFailed e) }

/-- The state in which the `k`-th write of the setup, with this command byte, has failed (R103, 60_exceptions R132). -/
def setupWriteFailed (k : Nat) (cmd : Byte) (e : CollabError) (s : State) : State :=
  { s with
    bus := .opened 0x70#7
    history := s.history ++ (setupEvents s.cfg s.ctl).take (k + 3)
    busReplies := s.busReplies.skip (k + 2)
    fault := some (.busWriteFailed cmd e) }

theorem acquireDisp_of_open_failed {s : State} (hf : s.fault = none) {e : CollabError} (hfail : s.busReplyAt 0 = .error e) :
    acquireDisp s = busOpenFailed e s := by
  have hacq := acquireDisp_eq s hf
  rw [hfail] at hacq
  exact hacq

theorem acquireDisp_of_write_failed {s : State} (hf : s.fault = none) {k : Nat} {cmd : Byte} {e : CollabError}
    (hcmd : [s.cfg.cmdOscOn, blinkCmd s.cfg s.ctl.blink, dimCmd s.cfg s.ctl.br][k]? = some cmd)
    (hbefore : ∀ j < k + 1, s.busReplyAt j = .ok) (hfail : s.busReplyAt (k + 1) = .error e) :
    acquireDisp s = setupWriteFailed k cmd e s := by
  have hacq := acquireDisp_eq s hf
  match k, hcmd with
  | 0, rfl =>
    rw [hbefore 0 (by decide), hfail] at hacq
    exact hacq
  | 1, rfl =>
    rw [hbefore 0 (by decide), hbefore 1 (by decide), hfail] at hacq
    exact hacq
  | 2, rfl =>
    rw [hbefore 0 (by decide), hbefore 1 (by decide), hbefore 2 (by decide), hfail] at hacq
    exact hacq

/-- A setup that faults is all that `DISP.SETUP` or `DISP.WRITE_DISPLAY` does (40_lifecycle R87, 60_exceptions R131). -/
theorem exec_of_failed_acquireDisp {s t : State} (hs : s.DispFresh) {i : Instr} (hi : i = .dispSetup ∨ i = .dispWriteDisplay)
    (hacq : acquireDisp s = t) (ht : t.fault ≠ none) : exec i s = .next t := by
  obtain ⟨hf, hset, hsim⟩ := hs
  have hsetup : ensureSetup .disp s = t := by
    rw [ensureSetup_of_fresh (d := .disp) hset hsim, acquire, andThen_of_faulted (by rwa [hacq]), hacq]
  obtain rfl | rfl := hi
  · rw [exec_dispSetup hf, hsetup]
  · rw [exec_of_running hf rfl, body, flushBuffer, andThen_of_faulted (by rwa [hsetup]), hsetup]

/-- Settles O25: the calls stop at the one that fails, and the operation with them. -/
theorem failedDispSetupStopsOperation : Obligations.FailedDispSetupStopsOperation := by
  intro s e i hs hi
  have ⟨hf, _, _⟩ := hs
  exact ⟨fun hfail => exec_of_failed_acquireDisp hs hi (acquireDisp_of_open_failed hf hfail) nofun,
    fun k cmd hcmd hbefore hfail =>
      exec_of_failed_acquireDisp hs hi (acquireDisp_of_write_failed hf hcmd hbefore hfail) nofun⟩

/-! ## Flushing the buffer -/

theorem busWrite_of_running {s : State} (hf : s.fault = none) (cmd : Byte) (payload : List Byte) :
    busWrite cmd payload s = { s with
      history := s.history ++ [.write cmd payload]
      busReplies := s.busReplies.skip 1
      fault := match s.busReplyAt 0 with
        | .ok => none
        | .error e => some (.busWriteFailed cmd e) } := by
  have h := busWrite_eq cmd payload s
  rw [hf] at h
  exact h

/-- `write_display` sets up, and sends the buffer exactly if that did not fault and the driver is not simulated (R107). -/
theorem flushBuffer_eq (s : State) :
    flushBuffer s =
      if (ensureSetup .disp s).fault = none ∧ (ensureSetup .disp s).disp.sim = false then
        busWrite cmdData (ensureSetup .disp s).seg.toList (ensureSetup .disp s)
      else ensureSetup .disp s :=
  andThen_setup_ifNotSim .disp _ s

theorem exec_dispWriteDisplay {s : State} (hf : s.fault = none) : exec .dispWriteDisplay s = .next (flushBuffer s) :=
  exec_of_running hf rfl

/-- Settles O44: `flushBuffer_eq` says when the buffer is sent, and `toList_eq_bytes` in which order. -/
theorem writeDisplaySendsBuffer : Obligations.WriteDisplaySendsBuffer := by
  intro s hf sent
  have hsent {u : State} (hu : u.fault = none) : busWrite cmdData u.seg.toList u = sent u := by
    rw [toList_eq_bytes]
    exact busWrite_of_running hu _ _
  refine ⟨fun ⟨_, hset, hsim⟩ => ?_, _, exec_dispSetup hf, ?_⟩
  · rw [exec_dispWriteDisplay hf, flushBuffer_eq, ensureSetup_of_setup (d := .disp) hset, if_pos ⟨hf, hsim⟩, hsent hf]
  · rw [exec_dispWriteDisplay hf, flushBuffer_eq]
    split
    case isTrue h =>
      obtain ⟨hok, -⟩ := h
      rw [hsent hok]
    case isFalse => rfl

/-! ## Changing a setting -/

/-- Store a setting of the controller: the statement that R105 and R106 share. -/
def storeSetting (store : Ctl → Ctl) : Op := fun s => s.withCtl (store s.ctl)

/-- Send a setting's command unless the driver is simulated (R105, R106; 40_lifecycle R79). -/
def sendSetting (cmd : Config → Byte) : Op := ifNotSim .disp fun s => sendCmd (cmd s.cfg) s

/-- What `set_blink` and `set_brightness` do with a legal operand: store and set up, then send (R104 to R106). -/
def changeSetting (store : Ctl → Ctl) (cmd : Config → Byte) : Op := andThen (storeAndSetup (storeSetting store)) (sendSetting cmd)

/-- The settings of the controller with this blink rate (R105). -/
def Ctl.setBlink (f : BlinkFreq) (c : Ctl) : Ctl := { c with blink := f }

/-- The settings of the controller with this dimming level (R106). -/
def Ctl.setDim (l : BitVec 4) (c : Ctl) : Ctl := { c with br := l }

/-- Storing a setting leaves `initialized` alone, and storing it again changes nothing. -/
structure StoresSetting (store : Ctl → Ctl) : Prop where
  initialized : ∀ c v, store { c with initialized := v } = { store c with initialized := v }
  again : ∀ c, store (store c) = store c

theorem storesSetting_blink (f : BlinkFreq) : StoresSetting (Ctl.setBlink f) := ⟨fun _ _ => rfl, fun _ => rfl⟩

theorem storesSetting_dim (l : BitVec 4) : StoresSetting (Ctl.setDim l) := ⟨fun _ _ => rfl, fun _ => rfl⟩

theorem body_dispSetBlink_of_supported {s : State} {code : Byte} {f : BlinkFreq} (h : blinkDecode s.cfg code = some f) :
    body (.dispSetBlink code) s = changeSetting (Ctl.setBlink f) (blinkCmd · f) s := by
  rw [body, setBlink, h]
  rfl

theorem body_dispSetBlink_of_unsupported {s : State} {code : Byte} (h : blinkDecode s.cfg code = none) :
    body (.dispSetBlink code) s = raise (.blinkUnsupported code) s := by
  rw [body, setBlink, h]

theorem body_dispSetBrightness_of_legal (l : BitVec 4) :
    body (.dispSetBrightness (l.setWidth 8)) = changeSetting (Ctl.setDim l) (dimCmd · l) := by
  have hl : ¬ 15 < (l.setWidth 8).toNat ∧ (l.setWidth 8).extractLsb' 0 4 = l := by
    revert l
    decide
  funext s
  simp only [body, setDim, hl, if_false]
  rfl

theorem body_dispSetBrightness_of_illegal {level : Byte} (h : 15 < level.toNat) (s : State) :
    body (.dispSetBrightness level) s = raise (.dispBrightnessRange level) s :=
  if_pos h

theorem sendSetting_of_running (cmd : Config → Byte) {s : State} (hf : s.fault = none) :
    sendSetting cmd s =
      if s.disp.sim then s
      else { s with
        history := s.history ++ [.write (cmd s.cfg) []]
        busReplies := s.busReplies.skip 1
        fault := match s.busReplyAt 0 with
          | .ok => none
          | .error e => some (.busWriteFailed (cmd s.cfg) e) } :=
  congrArg (fun t => if s.disp.sim then s else t) (busWrite_of_running hf (cmd s.cfg) [])

/-! ### Storing and setting up, in either order -/

section
variable (store : Ctl → Ctl) (cmd : Config → Byte) {s : State}

theorem storeAndSetup_storeFirst (hf : s.fault = none) (ho : s.cfg.ctlOrder = .storeFirst) :
    storeAndSetup (storeSetting store) s = ensureSetup .disp (storeSetting store s) := by
  simp only [storeAndSetup, ho]
  exact andThen_of_running hf

theorem storeAndSetup_setupFirst (ho : s.cfg.ctlOrder = .setupFirst) :
    storeAndSetup (storeSetting store) s =
      if (ensureSetup .disp s).fault = none then storeSetting store (ensureSetup .disp s) else ensureSetup .disp s := by
  simp only [storeAndSetup, ho]
  exact andThen_eq_ite _ _ s

/-- On a driver that is set up the two orders are one. -/
theorem storeAndSetup_of_setup (hf : s.fault = none) (hset : s.disp.isSetup = true) :
    storeAndSetup (storeSetting store) s = storeSetting store s := by
  cases ho : s.cfg.ctlOrder with
  | storeFirst => exact (storeAndSetup_storeFirst store hf ho).trans (ensureSetup_of_setup (d := .disp) hset)
  | setupFirst => rw [storeAndSetup_setupFirst store ho, ensureSetup_of_setup (d := .disp) hset, if_pos hf]

theorem changeSetting_of_setup (hf : s.fault = none) (hset : s.disp.isSetup = true) :
    changeSetting store cmd s = sendSetting cmd (storeSetting store s) := by
  have hstored := storeAndSetup_of_setup store hf hset
  rw [changeSetting, andThen_of_running (by rw [hstored]; exact hf), hstored]

theorem changeSetting_storeFirst (hf : s.fault = none) (ho : s.cfg.ctlOrder = .storeFirst) :
    changeSetting store cmd s =
      if (ensureSetup .disp (storeSetting store s)).fault = none then
        sendSetting cmd (ensureSetup .disp (storeSetting store s))
      else ensureSetup .disp (storeSetting store s) := by
  rw [changeSetting, andThen_eq_ite, storeAndSetup_storeFirst store hf ho]

theorem changeSetting_setupFirst (ho : s.cfg.ctlOrder = .setupFirst) :
    changeSetting store cmd s =
      if (ensureSetup .disp s).fault = none then sendSetting cmd (storeSetting store (ensureSetup .disp s))
      else ensureSetup .disp s := by
  rw [changeSetting, andThen_eq_ite, storeAndSetup_setupFirst store ho]
  split
  case isTrue h => exact if_pos h
  case isFalse => rfl

theorem changeSetting_storeFirst_of_running {u : State} (hf : s.fault = none) (ho : s.cfg.ctlOrder = .storeFirst)
    (hu : ensureSetup .disp (storeSetting store s) = u) (hok : u.fault = none) :
    changeSetting store cmd s = sendSetting cmd u := by
  rw [changeSetting_storeFirst store cmd hf ho, hu, if_pos hok]

theorem changeSetting_setupFirst_of_running {u : State} (ho : s.cfg.ctlOrder = .setupFirst)
    (hu : ensureSetup .disp s = u) (hok : u.fault = none) : changeSetting store cmd s = sendSetting cmd (storeSetting store u) := by
  rw [changeSetting_setupFirst store cmd ho, hu, if_pos hok]

end

/-- The rule of an instruction that changes a setting (R104 to R106), with `sent` for what its send does. -/
theorem exec_of_changeSetting {store : Ctl → Ctl} {cmd : Config → Byte} {i : Instr} {s : State} {sent : State → State}
    (hf : s.fault = none) (hr : refusesInstr s.cfg i = false) (hi : body i s = changeSetting store cmd s)
    (hsent : ∀ {u : State}, u.fault = none → sendSetting cmd u = sent u) :
    (s.disp.isSetup = true → exec i s = .next (sent (storeSetting store s))) ∧
    (s.cfg.ctlOrder = .storeFirst → ∃ u, exec .dispSetup (storeSetting store s) = .next u ∧
      exec i s = .next (if u.fault = none then sent u else u)) ∧
    (s.cfg.ctlOrder = .setupFirst → ∃ u, exec .dispSetup s = .next u ∧
      exec i s = .next (if u.fault = none then sent (storeSetting store u) else u)) := by
  rw [exec_of_running hf hr, hi]
  refine ⟨fun hset => ?_, fun ho => ⟨_, exec_dispSetup (s := storeSetting store s) hf, ?_⟩,
    fun ho => ⟨_, exec_dispSetup hf, ?_⟩⟩
  · rw [changeSetting_of_setup store cmd hf hset, hsent (u := storeSetting store s) hf]
  · rw [changeSetting_storeFirst store cmd hf ho]
    split
    case isTrue h => rw [hsent h]
    case isFalse => rfl
  · rw [changeSetting_setupFirst store cmd ho]
    split
    case isTrue h => rw [hsent (u := storeSetting store (ensureSetup .disp s)) h]
    case isFalse => rfl

/-- Under legal parameters a code is supported exactly when it is a frequency's code (R102). -/
theorem blinkDecode_eq_some {cfg : Config} (hcfg : cfg.Legal) {code : Byte} {f : BlinkFreq} :
    blinkDecode cfg code = some f ↔ code = cfg.blinkHost.get f := by
  obtain ⟨-, hnodup, -⟩ := hcfg
  have hcodes : ([BlinkFreq.off, .hz2, .hz1, .hz05].map cfg.blinkHost.get).Nodup := hnodup
  have hfound {g : BlinkFreq} (h : blinkDecode cfg code = some g) : cfg.blinkHost.get g = code := by
    simpa using List.find?_some h
  refine ⟨fun h => (hfound h).symm, fun h => ?_⟩
  have hsome : (blinkDecode cfg code).isSome = true :=
    List.find?_isSome.2 ⟨f, mem_blinkFreqs f, beq_iff_eq.2 h.symm⟩
  obtain ⟨g, hg⟩ := Option.isSome_iff_exists.1 hsome
  rw [hg, List.inj_on_of_nodup_map hcodes (mem_blinkFreqs g) (mem_blinkFreqs f) ((hfound hg).trans h)]

/-- Settles O41: a supported code is a change of the blink setting. -/
theorem setBlinkStoresAndSends : Obligations.SetBlinkStoresAndSends := by
  intro s code hf
  refine ⟨fun f hcfg => blinkDecode_eq_some hcfg, fun h => ?_, fun f h => ?_⟩
  · rw [exec_of_running hf rfl, body_dispSetBlink_of_unsupported h]
    rfl
  · intro stored sent
    exact exec_of_changeSetting hf rfl (body_dispSetBlink_of_supported h) (sendSetting_of_running (blinkCmd · f))

/-- Settles O42: a legal level is a change of the dimming setting. -/
theorem setDisplayBrightnessStoresAndSends : Obligations.SetDisplayBrightnessStoresAndSends := by
  intro s level hf
  refine ⟨fun h => ?_, fun l h => ?_⟩
  · rw [exec_of_running hf rfl, body_dispSetBrightness_of_illegal h]
    rfl
  · intro stored sent
    subst h
    exact exec_of_changeSetting hf rfl (congrFun (body_dispSetBrightness_of_legal l) s) (sendSetting_of_running (dimCmd · l))

/-! ### The first call -/

theorem sendSetting_of_reply (cmd : Config → Byte) {s : State} (hsim : s.disp.sim = false) (hreply : s.busReplyAt 0 = .ok) :
    sendSetting cmd s =
      { s with history := s.history ++ [.write (cmd s.cfg) []], busReplies := s.busReplies.skip 1 } := by
  rw [sendSetting, ifNotSim_of_not_sim (d := .disp) hsim]
  exact busWrite_of_reply hreply _ _

/-- The settings that the setup inside a change of a setting sends: the new ones or the old (R104). -/
def settingsAtSetup (store : Ctl → Ctl) (s : State) : Ctl :=
  match s.cfg.ctlOrder with
  | .storeFirst => store s.ctl
  | .setupFirst => s.ctl

/-- The first change of a setting, with five calls that succeed: the setup, then the setting's command (R104). -/
theorem changeSetting_of_replies {store : Ctl → Ctl} (hstore : StoresSetting store) (cmd : Config → Byte) {s : State}
    (hs : s.DispFresh) (hreplies : ∀ k < 5, s.busReplyAt k = .ok) :
    changeSetting store cmd s = { s with
      disp := { isSetup := true, sim := false }
      ctl := { store s.ctl with initialized := true }
      bus := .opened 0x70#7
      history := s.history ++ setupEvents s.cfg (settingsAtSetup store s) ++ [.write (cmd s.cfg) []]
      busReplies := s.busReplies.skip 5 } := by
  have ⟨hf, _, _⟩ := hs
  have hsetup : ∀ k < 4, s.busReplyAt k = .ok := fun k hk => hreplies k (by omega)
  have hlast : (dispSetUp s).busReplyAt 0 = .ok := replies_skip (n := 1) hreplies rfl 0 (by decide)
  cases ho : s.cfg.ctlOrder with
  | storeFirst =>
    have hu : ensureSetup .disp (storeSetting store s) = dispSetUp (storeSetting store s) := ensureSetup_disp_of_replies hs hsetup
    rw [changeSetting_storeFirst_of_running store cmd hf ho hu hf,
      sendSetting_of_reply (s := dispSetUp (storeSetting store s)) cmd rfl hlast]
    simp only [settingsAtSetup, ho, dispSetUp, storeSetting, State.withCtl, Draws.skip_skip]
  | setupFirst =>
    rw [changeSetting_setupFirst_of_running store cmd ho (ensureSetup_disp_of_replies hs hsetup) hf,
      sendSetting_of_reply (s := storeSetting store (dispSetUp s)) cmd rfl hlast,
      ← hstore.initialized]
    simp only [settingsAtSetup, ho, dispSetUp, storeSetting, State.withCtl, Draws.skip_skip]

/-- Settles O43: each is a first change of its setting, and the order is in the settings that the setup sends. -/
theorem firstControllerCallOrder : Obligations.FirstControllerCallOrder := by
  intro s hs hreplies
  have ⟨hf, _, _⟩ := hs
  refine ⟨fun code f h => ?_, fun l => ?_⟩
  · rw [exec_of_running hf rfl, body_dispSetBlink_of_supported h,
      changeSetting_of_replies (storesSetting_blink f) _ hs hreplies, settingsAtSetup, List.append_assoc]
    cases s.cfg.ctlOrder <;> rfl
  · rw [exec_of_running hf rfl, body_dispSetBrightness_of_legal,
      changeSetting_of_replies (storesSetting_dim l) _ hs hreplies, settingsAtSetup, List.append_assoc]
    cases s.cfg.ctlOrder <;> rfl

/-! ### In simulation -/

/-- In simulation setting up leaves the display set up and simulated, whether or not it was set up before (10_state R20, 40_lifecycle
R78). -/
theorem ensureSetup_disp_of_sim {s : State} (hf : s.fault = none) (hsim : s.disp.sim = true) (hinit : s.InitializedAgrees) :
    ensureSetup .disp s =
      { s with disp := { isSetup := true, sim := true }, ctl := { s.ctl with initialized := true } } := by
  cases hset : s.disp.isSetup with
  | true =>
    have hdisp : s.disp = { isSetup := true, sim := true } := congrArg₂ LifecycleFlags.mk hset hsim
    have hctl : s.ctl = { s.ctl with initialized := true } :=
      congrArg (fun v => { s.ctl with initialized := v }) (hinit.trans hset)
    rw [ensureSetup_of_setup (d := .disp) hset]
    exact congrArg₂ (fun disp ctl => (s.withDisp disp).withCtl ctl) hdisp hctl
  | false => rw [ensureSetup_of_sim (d := .disp) hf hset hsim, markSetup_disp_of_sim hsim]

theorem StoresSetting.initialized_eq {store : Ctl → Ctl} (hstore : StoresSetting store) (c : Ctl) :
    (store c).initialized = c.initialized := by
  have h := congrArg Ctl.initialized (hstore.initialized c c.initialized)
  exact h

/-- In simulation a change of a setting stores it and sets up, in either order, and sends nothing (R104 to R106, 40_lifecycle R79). -/
theorem changeSetting_of_sim {store : Ctl → Ctl} (hstore : StoresSetting store) (cmd : Config → Byte) {s : State}
    (hf : s.fault = none) (hsim : s.disp.sim = true) (hinit : s.InitializedAgrees) :
    changeSetting store cmd s =
      { s with disp := { isSetup := true, sim := true }, ctl := { store s.ctl with initialized := true } } := by
  cases ho : s.cfg.ctlOrder with
  | storeFirst =>
    have hinit' : (storeSetting store s).InitializedAgrees := (hstore.initialized_eq s.ctl).trans hinit
    have hu := ensureSetup_disp_of_sim (s := storeSetting store s) hf hsim hinit'
    exact (changeSetting_storeFirst_of_running store cmd hf ho hu hf).trans (ifNotSim_of_sim (d := .disp) (by rfl) _)
  | setupFirst =>
    rw [changeSetting_setupFirst_of_running store cmd ho (ensureSetup_disp_of_sim hf hsim hinit) hf, ← hstore.initialized]
    exact ifNotSim_of_sim (d := .disp) (by rfl) _

/-- Settles O45: in simulation the two settings are stored, and the flush of the buffer is its setup. -/
theorem simulatedDisplaySendsNothing : Obligations.SimulatedDisplaySendsNothing := by
  intro s hf hsim hinit
  refine ⟨fun code f h => ?_, fun l => ?_, ?_⟩
  · rw [exec_of_running hf rfl, body_dispSetBlink_of_supported h, changeSetting_of_sim (storesSetting_blink f) _ hf hsim hinit]
    rfl
  · rw [exec_of_running hf rfl, body_dispSetBrightness_of_legal, changeSetting_of_sim (storesSetting_dim l) _ hf hsim hinit]
    rfl
  · have hflush : flushBuffer s = ensureSetup .disp s := onWire_of_sim (d := .disp) hf hsim _
    rw [exec_dispWriteDisplay hf, hflush, ensureSetup_disp_of_sim hf hsim hinit]

end Sys2Proof.Machine
end

section
/-! What the controller has been told (spec/42_display_controller.md R108): after every step that runs a host operation, the stored
settings. -/

namespace Sys2Proof.Machine

/-! ## The commands in a history -/

/-- The last commands in the events are these settings, and the first write is the oscillator command (R108). -/
structure Told (cfg : Config) (c : Ctl) (evs : List Event) : Prop where
  blink : lastCmd (isBlinkCmd cfg) evs = some (blinkCmd cfg c.blink)
  dim : lastCmd (isDimCmd cfg) evs = some (dimCmd cfg c.br)
  first : (busWrites evs).head? = some (cfg.cmdOscOn, [])

theorem controllerAgrees_iff {s : State} : s.ControllerAgrees ↔ (s.DispReady → Told s.cfg s.ctl s.history) :=
  ⟨fun h ⟨hf, hset, hsim⟩ =>
    have ⟨hblink, hdim, hfirst⟩ := h hf hset hsim
    ⟨hblink, hdim, hfirst⟩,
   fun h hf hset hsim =>
    have ⟨hblink, hdim, hfirst⟩ := h ⟨hf, hset, hsim⟩
    ⟨hblink, hdim, hfirst⟩⟩

theorem busWrites_eventsOf_disp (evs : List Event) : busWrites (eventsOf .disp evs) = busWrites evs := by
  induction evs with
  | nil => rfl
  | cons e evs ih =>
    cases e with
    | write cmd payload => exact congrArg ((cmd, payload) :: ·) ih
    | claim _ | pin _ _ | settle | busOpen | addr _ => exact ih

section
variable {cfg : Config} (hcfg : cfg.CommandsDistinct)
include hcfg

theorem isBlinkCmd_dimCmd (level : BitVec 4) : isBlinkCmd cfg (dimCmd cfg level) = false := by
  rw [isBlinkCmd, (dimCmd_ne hcfg level).2, Option.isSome_none]

theorem isDimCmd_blinkCmd (f : BlinkFreq) : isDimCmd cfg (blinkCmd cfg f) = false := by
  obtain ⟨-, -, hother⟩ := hcfg
  exact beq_false_of_ne (hother _ (.tail _ (.tail _ (List.mem_map_of_mem (f := blinkCmd cfg) (mem_blinkFreqs f)))))

theorem isBlinkCmd_cmdData : isBlinkCmd cfg cmdData = false := by
  obtain ⟨hnodup, -, -⟩ := hcfg
  rw [isBlinkCmd, Option.isSome_eq_false_iff, Option.isNone_iff_eq_none]
  refine List.find?_eq_none.2 fun f hf => ?_
  rw [beq_iff_eq]
  exact fun e => (List.nodup_cons.1 hnodup).1 (.tail _ (e ▸ List.mem_map_of_mem hf))

theorem isDimCmd_cmdData : isDimCmd cfg cmdData = false := by
  obtain ⟨-, -, hother⟩ := hcfg
  exact beq_false_of_ne (hother _ (.head _))

end

namespace Told

variable {cfg : Config} {c : Ctl} {evs : List Event}

/-- Only the bus writes count. -/
theorem of_busWrites {evs' : List Event} (h : Told cfg c evs) (hw : busWrites evs' = busWrites evs) : Told cfg c evs' := by
  obtain ⟨hblink, hdim, hfirst⟩ := h
  unfold lastCmd at hblink hdim
  rw [← hw] at hblink hdim hfirst
  exact ⟨hblink, hdim, hfirst⟩

/-- After one more write the settings told are the new last commands; the first write stays. -/
protected theorem write {c' : Ctl} (h : Told cfg c evs) {cmd : Byte} (payload : List Byte)
    (hblink : (if isBlinkCmd cfg cmd then cmd else blinkCmd cfg c.blink) = blinkCmd cfg c'.blink)
    (hdim : (if isDimCmd cfg cmd then cmd else dimCmd cfg c.br) = dimCmd cfg c'.br) :
    Told cfg c' (evs ++ [.write cmd payload]) where
  blink := by rw [lastCmd_write, h.blink, ← apply_ite some, hblink]
  dim := by rw [lastCmd_write, h.dim, ← apply_ite some, hdim]
  first := by rw [busWrites_append, List.head?_append, h.first, Option.some_or]

variable (hcfg : cfg.CommandsDistinct)
include hcfg

protected theorem data (h : Told cfg c evs) (payload : List Byte) : Told cfg c (evs ++ [.write cmdData payload]) :=
  h.write payload (by rw [isBlinkCmd_cmdData hcfg]; rfl) (by rw [isDimCmd_cmdData hcfg]; rfl)

protected theorem setBlink (h : Told cfg c evs) (f : BlinkFreq) : Told cfg (c.setBlink f) (evs ++ [.write (blinkCmd cfg f) []]) :=
  h.write [] (by rw [isBlinkCmd_blinkCmd]; rfl) (by rw [isDimCmd_blinkCmd hcfg]; rfl)

protected theorem setDim (h : Told cfg c evs) (l : BitVec 4) : Told cfg (c.setDim l) (evs ++ [.write (dimCmd cfg l) []]) :=
  have ⟨_, hbase, _⟩ := hcfg
  h.write [] (by rw [isBlinkCmd_dimCmd hcfg]; rfl) (by rw [isDimCmd_dimCmd hbase]; rfl)

/-- The setup tells both settings, after the oscillator command (R103). -/
protected theorem setupEvents (c : Ctl) : Told cfg c (setupEvents cfg c) where
  blink := by
    simp [lastCmd, Machine.setupEvents, busWrites, isBlinkCmd_dimCmd hcfg, isBlinkCmd_blinkCmd]
  dim := by
    obtain ⟨-, hbase, -⟩ := hcfg
    simp [lastCmd, Machine.setupEvents, busWrites, isDimCmd_dimCmd hbase]
  first := rfl

end Told

/-! ## The operations of the display -/

/-- A setup that does not fault has had four calls that succeeded (R103). -/
theorem replies_of_acquireDisp {s : State} (hf : s.fault = none) (hok : (acquireDisp s).fault = none) :
    ∀ k < 4, s.busReplyAt k = .ok := by
  rw [acquireDisp_eq s hf] at hok
  split at hok
  case h_5 h0 h1 h2 h3 =>
    intro k hk
    match k, hk with
    | 0, _ => exact h0
    | 1, _ => exact h1
    | 2, _ => exact h2
    | 3, _ => exact h3
  all_goals cases hok

/-- A setup that leaves a driver ready that was not set up before has made all its calls (R103). -/
theorem ensureSetup_disp_of_ready {s : State} (hf : s.fault = none) (hset : s.disp.isSetup = false)
    (hready : (ensureSetup .disp s).DispReady) : ensureSetup .disp s = dispSetUp s := by
  obtain ⟨hok, -, hsim'⟩ := hready
  have hsim : s.disp.sim = false := (ensureSetup_sim .disp hf).symm.trans hsim'
  have hacq : (acquireDisp s).fault = none := by
    by_contra hfault
    rw [ensureSetup_of_fresh (d := .disp) hset hsim, acquire, andThen_of_faulted hfault] at hok
    exact hfault hok
  exact ensureSetup_disp_of_replies ⟨hf, hset, hsim⟩ (replies_of_acquireDisp hf hacq)

/-- A first physical setup tells both settings, if no call was made before it (R103). -/
theorem told_dispSetUp {s : State} (hf : s.fault = none) (hset : s.disp.isSetup = false) (hcfg : s.cfg.CommandsDistinct)
    (hcalls : s.NoCallUnlessSetUp) : Told s.cfg (dispSetUp s).ctl (dispSetUp s).history := by
  have hnone : eventsOf .disp s.history = [] := (hcalls hf .disp).resolve_left (by simp [hset])
  refine (Told.setupEvents hcfg _).of_busWrites ?_
  rw [dispSetUp, busWrites_append, ← busWrites_eventsOf_disp s.history, hnone]
  rfl

theorem controllerAgrees_of_not_setup {s : State} (hset : s.disp.isSetup = false) : s.ControllerAgrees :=
  fun _ hset' => absurd (hset.symm.trans hset') nofun

theorem controllerAgrees_ensureSetup {s : State} (hf : s.fault = none) (hcfg : s.cfg.CommandsDistinct)
    (hcalls : s.NoCallUnlessSetUp) (h : s.ControllerAgrees) : (ensureSetup .disp s).ControllerAgrees := by
  cases hset : s.disp.isSetup with
  | true => rwa [ensureSetup_of_setup (d := .disp) hset]
  | false =>
    refine controllerAgrees_iff.2 fun hready => ?_
    rw [ensureSetup_disp_of_ready hf hset hready]
    exact told_dispSetUp hf hset hcfg hcalls

/-- A write after which the settings told are the stored ones, sent unless the driver is simulated. -/
theorem controllerAgrees_write {s : State} {cmd : State → Byte} {payload : State → List Byte}
    (h : s.DispReady → Told s.cfg s.ctl (s.history ++ [.write (cmd s) (payload s)])) :
    (ifNotSim .disp (fun t => busWrite (cmd t) (payload t) t) s).ControllerAgrees := by
  refine controllerAgrees_iff.2 fun hready => ?_
  cases hsim : s.disp.sim with
  | true =>
    rw [ifNotSim_of_sim (d := .disp) hsim] at hready
    obtain ⟨-, -, hsim'⟩ := hready
    exact absurd (hsim.symm.trans hsim') nofun
  | false =>
    rw [ifNotSim_of_not_sim (d := .disp) hsim] at hready ⊢
    obtain ⟨hok, hset, -⟩ := hready
    have hf := busWrite_fault hok
    rw [busWrite_eq] at hset ⊢
    exact h ⟨hf, hset, hsim⟩

theorem controllerAgrees_flushBuffer {s : State} (hf : s.fault = none) (hcfg : s.cfg.CommandsDistinct)
    (hcalls : s.NoCallUnlessSetUp) (h : s.ControllerAgrees) : (flushBuffer s).ControllerAgrees := by
  refine andThen_induction (controllerAgrees_ensureSetup hf hcfg hcalls h) fun h' => ?_
  have hcfg' : (ensureSetup .disp s).cfg = s.cfg := (Sends.ensureSetup .disp s).cfg
  exact controllerAgrees_write fun hready => (controllerAgrees_iff.1 h' hready).data (hcfg' ▸ hcfg) _

/-- Storing a setting and setting up, in either order: without a fault the controller has been told settings that differ from the
stored ones in that setting at most (R104). -/
theorem told_storeAndSetup {store : Ctl → Ctl} (hstore : StoresSetting store) {s : State} (hf : s.fault = none)
    (hcfg : s.cfg.CommandsDistinct) (hcalls : s.NoCallUnlessSetUp) (h : s.ControllerAgrees)
    (hready : (storeAndSetup (storeSetting store) s).DispReady) :
    ∃ c, Told s.cfg c (storeAndSetup (storeSetting store) s).history ∧
      store c = (storeAndSetup (storeSetting store) s).ctl := by
  cases hset : s.disp.isSetup with
  | true =>
    rw [storeAndSetup_of_setup store hf hset] at hready ⊢
    exact ⟨s.ctl, controllerAgrees_iff.1 h hready, rfl⟩
  | false =>
    cases ho : s.cfg.ctlOrder with
    | storeFirst =>
      rw [storeAndSetup_storeFirst store hf ho] at hready ⊢
      rw [ensureSetup_disp_of_ready (s := storeSetting store s) hf hset hready]
      refine ⟨_, told_dispSetUp (s := storeSetting store s) hf hset hcfg hcalls, ?_⟩
      rw [dispSetUp, hstore.initialized, storeSetting, State.withCtl_ctl, hstore.again]
    | setupFirst =>
      rw [storeAndSetup_setupFirst store ho] at hready ⊢
      split at hready
      case isTrue hok =>
        rw [if_pos hok, ← (Sends.ensureSetup .disp s).cfg]
        exact ⟨_, controllerAgrees_iff.1 (controllerAgrees_ensureSetup hf hcfg hcalls h) hready, rfl⟩
      case isFalse hfault =>
        obtain ⟨hok, -, -⟩ := hready
        exact absurd hok hfault

/-- A change of a setting leaves a driver that agrees, if sending its command tells that setting (R104 to R106). -/
theorem controllerAgrees_changeSetting {store : Ctl → Ctl} (hstore : StoresSetting store) {cmd : Config → Byte} {s : State}
    (hsend : ∀ {c evs}, Told s.cfg c evs → Told s.cfg (store c) (evs ++ [.write (cmd s.cfg) []])) (hf : s.fault = none)
    (hcfg : s.cfg.CommandsDistinct) (hcalls : s.NoCallUnlessSetUp) (h : s.ControllerAgrees) :
    (changeSetting store cmd s).ControllerAgrees := by
  rw [changeSetting]
  obtain ⟨-, e⟩ | ⟨hfault, e⟩ := andThen_cases (storeAndSetup (storeSetting store)) (sendSetting cmd) s <;> rw [e]
  · refine controllerAgrees_write fun hready => ?_
    obtain ⟨c, hc, hstored⟩ := told_storeAndSetup hstore hf hcfg hcalls h hready
    have hcfg' : (storeAndSetup (storeSetting store) s).cfg = s.cfg := (Sends.storeAndSetup (.withCtl store) s).cfg
    rw [hcfg', ← hstored]
    exact hsend hc
  · exact fun hok => absurd hok hfault

theorem controllerAgrees_setBlink (code : Byte) {s : State} (hf : s.fault = none) (hcfg : s.cfg.CommandsDistinct)
    (hcalls : s.NoCallUnlessSetUp) (h : s.ControllerAgrees) : (body (.dispSetBlink code) s).ControllerAgrees := by
  cases hcode : blinkDecode s.cfg code with
  | none =>
    rw [body_dispSetBlink_of_unsupported hcode]
    exact nofun
  | some f =>
    rw [body_dispSetBlink_of_supported hcode]
    exact controllerAgrees_changeSetting (storesSetting_blink f) (fun hc => hc.setBlink hcfg f) hf hcfg hcalls h

theorem controllerAgrees_setDim (level : Byte) {s : State} (hf : s.fault = none) (hcfg : s.cfg.CommandsDistinct)
    (hcalls : s.NoCallUnlessSetUp) (h : s.ControllerAgrees) : (body (.dispSetBrightness level) s).ControllerAgrees := by
  by_cases hlevel : 15 < level.toNat
  · rw [body_dispSetBrightness_of_illegal hlevel]
    exact nofun
  · obtain ⟨l, rfl⟩ : ∃ l : BitVec 4, level = l.setWidth 8 := ⟨level.setWidth 4, by bv_omega⟩
    rw [body_dispSetBrightness_of_legal]
    exact controllerAgrees_changeSetting (storesSetting_dim l) (fun hc => hc.setDim hcfg l) hf hcfg hcalls h

theorem controllerAgrees_changeSim (v : Bool) {s : State} (h : s.ControllerAgrees) :
    (changeSim .disp v s).ControllerAgrees := by
  cases hset : s.disp.isSetup with
  | false =>
    rw [changeSim_of_not_setup (d := .disp) hset]
    exact controllerAgrees_of_not_setup hset
  | true =>
    by_cases hv : v = s.disp.sim
    · rwa [hv, changeSim_same .disp]
    · rw [changeSim_of_setup_ne (d := .disp) hset hv]
      exact nofun

/-! ## Every host operation -/

theorem body_cfg (i : Instr) {s : State} (hf : s.fault = none) : (body i s).cfg = s.cfg :=
  ((GivesNothingUp.keptByParts s).allBodies (fun _ _ _ h => h.trans (.emit _ _)) i s hf (.refl s)).cfg

/-- The LED driver leaves alone what belongs to the display, and R108 speaks of nothing else. -/
theorem controllerAgrees_of_led {i : Instr} (hd : i.driver = .led) {s : State} (hf : s.fault = none) (h : s.ControllerAgrees) :
    (body i s).ControllerAgrees := by
  have hi := Confined.body i
  rw [hd] at hi
  obtain ⟨-, hctl, hdisp, -, -, hev⟩ := hi.frame s
  refine controllerAgrees_iff.2 fun ⟨_, hset, hsim⟩ => ?_
  rw [hdisp] at hset hsim
  rw [body_cfg i hf, hctl]
  refine (controllerAgrees_iff.1 h ⟨hf, hset, hsim⟩).of_busWrites ?_
  rw [← busWrites_eventsOf_disp, hev, busWrites_eventsOf_disp]

/-- The glyph layer writes the segment buffer alone (43_glyph R114 to R117). -/
theorem controllerAgrees_of_glyph {i : Instr} (hbuf : isBufferOnly i = true) (hd : i.driver = .disp) {s : State}
    (hf : s.fault = none) (h : s.ControllerAgrees) : (body i s).ControllerAgrees := by
  have hi := WritesBuffer.body hbuf s
  rw [hd, OnlyBuffer] at hi
  rw [hi]
  exact fun _ => h hf

/-- Every host operation leaves a driver that agrees, if no call was made on one that is not set up (R108). -/
theorem controllerAgrees_hostBody {i : Instr} (hi : i.isHost = true) {s : State} (hf : s.fault = none)
    (hcfg : s.cfg.CommandsDistinct) (hcalls : s.NoCallUnlessSetUp) (h : s.ControllerAgrees) : (body i s).ControllerAgrees := by
  cases i with
  | ledSetup | ledSetSimulation _ | ledSetPixel _ _ _ _ _ | ledSetAll _ _ _ _ | ledSetBrightness _ | ledClear | ledShow
  | ledExit => exact controllerAgrees_of_led rfl hf h
  | dispSetDigitRaw _ _ | dispSetDecimal _ _ | dispSetDigit _ _ _ | dispPrintStr _ _ =>
    exact controllerAgrees_of_glyph rfl rfl hf h
  | dispSetup => exact controllerAgrees_ensureSetup hf hcfg hcalls h
  | dispSetSimulation v => exact controllerAgrees_changeSim v h
  | dispSetBlink code => exact controllerAgrees_setBlink code hf hcfg hcalls h
  | dispSetBrightness level => exact controllerAgrees_setDim level hf hcfg hcalls h
  | dispWriteDisplay => exact controllerAgrees_flushBuffer hf hcfg hcalls h
  | ledSof | ledPixelWord _ _ _ _ | ledEof | i2cData _ | i2cOscOn | i2cBlink _ | i2cDim _ => cases hi

/-- A request from the host decodes to a host operation (30_encoding R54). -/
theorem isHost_of_decode {cfg : Config} {r : Request} {i : Instr} (hr : r.isHost = true) (hd : decode cfg r = .ok i) :
    i.isHost = true := by
  cases r with
  | host selector operands =>
    obtain ⟨hi, -, -⟩ := decodeHost_eq_ok hd
    exact hi
  | led _ | i2c _ _ => cases hr

/-- Settles O17: the step waits, or it runs the host operation that its oldest request decodes to. -/
theorem hostStepKeepsControllerAgrees : Obligations.HostStepKeepsControllerAgrees := by
  intro s t hcfg hcalls hhost h hstep
  obtain ⟨hf, ⟨-, rfl⟩ | ⟨r, rest, i, hinbox, hd, he⟩⟩ := step_eq_next hstep
  · exact h
  · obtain ⟨-, -, rfl⟩ := exec_eq_next.1 he
    have hi : i.isHost = true := isHost_of_decode (hhost r (by rw [hinbox]; rfl)) hd
    exact controllerAgrees_hostBody (s := s.withInbox rest) hi hf hcfg hcalls h

end Sys2Proof.Machine
end

section
/-! The glyph layer statements (spec/43_glyph.md): the two raw writes (R114, R115), the glyph table (R110, R113), and characters set one at
a time (R116) and in texts (R117 to R119). -/

namespace Sys2Proof.Machine

/-! ## Positions -/

/-- A position is one of the display's four, or it is ignored (R114). -/
theorem position_cases (pos : Int) : (∃ p : Fin 4, pos = (p.val : Int)) ∨ (pos < 0 ∨ 3 < pos) := by
  by_cases h : 0 ≤ pos ∧ pos ≤ 3
  · exact .inl ⟨⟨pos.toNat, by omega⟩, by simp [h]⟩
  · exact .inr (by omega)

theorem setDigitRaw_of_fin (p : Fin 4) (mask : BitVec 16) (s : State) :
    setDigitRaw p.val mask s = s.withSeg (storeMask s.seg p mask) := by
  simp only [setDigitRaw, posIndex?_of_fin]

theorem setDigitRaw_of_outside {pos : Int} (h : pos < 0 ∨ 3 < pos) (mask : BitVec 16) (s : State) :
    setDigitRaw pos mask s = s := by
  simp only [setDigitRaw, posIndex?_of_outside h, ignore_eq]

theorem setDecimal_of_fin (p : Fin 4) (on : Bool) (s : State) :
    setDecimal p.val on s = s.withSeg (storeDecimal s.seg p on) := by
  simp only [setDecimal, posIndex?_of_fin]

theorem setDecimal_of_outside {pos : Int} (h : pos < 0 ∨ 3 < pos) (on : Bool) (s : State) : setDecimal pos on s = s := by
  simp only [setDecimal, posIndex?_of_outside h, ignore_eq]

/-! ## Raw writes -/

/-- Settles O46: at a position the operation stores the mask, which `storeMask_get` and `readMask_storeMask` describe. -/
theorem setDigitRawRoundTrip : Obligations.SetDigitRawRoundTrip := by
  intro s pos mask hf
  rw [exec_of_running hf rfl, body]
  refine ⟨?_, fun hpos => by rw [setDigitRaw_of_outside hpos]⟩
  rintro p rfl
  rw [setDigitRaw_of_fin]
  exact ⟨_, rfl, rfl, storeMask_get s.seg p mask, readMask_storeMask s.seg p mask⟩

/-- Or-ing 0x40 sets bit 6 and and-ing 0xBF clears it; the other bits stay (R115). -/
theorem getLsbD_decimal (b : Byte) (on : Bool) {k : Nat} (hk : k < 8) :
    (if on then b ||| 0x40#8 else b &&& 0xBF#8).getLsbD k = if k = 6 then on else b.getLsbD k := by
  have hset : 0x40#8 = BitVec.twoPow 8 6 := rfl
  have hclear : 0xBF#8 = ~~~BitVec.twoPow 8 6 := rfl
  cases on
  · by_cases h : k = 6 <;> simp [hclear, hk, h]
  · by_cases h : k = 6 <;> simp [hset, hk, h]

/-- Settles O47: storing the decimal point leaves every byte but the high one, and every bit of that but bit 6. -/
theorem setDecimalWritesOneBit : Obligations.SetDecimalWritesOneBit := by
  intro s pos on hf
  rw [exec_of_running hf rfl, body]
  refine ⟨?_, fun hpos => by rw [setDecimal_of_outside hpos]⟩
  rintro p rfl
  rw [setDecimal_of_fin]
  refine ⟨_, rfl, rfl, fun j hj k hk => ?_⟩
  rw [State.withSeg_seg, storeDecimal_get]
  by_cases hhigh : j = 2 * p.val + 1
  · simp only [hhigh, if_true, true_and, getLsbD_decimal _ on hk]
  · simp only [hhigh, if_false, false_and]

/-! ## Characters -/

/-- A character whose code is in the table's range has the entry of its code (R113). -/
theorem lookup_of_code (cfg : Config) {ch : Char} {k : Fin 95} (h : ch.toNat = 32 + k.val) :
    lookup cfg ch = some cfg.glyph[k.val] := by
  have hk : ch.toNat - 32 = k.val := by omega
  rw [lookup, dif_pos (by omega)]
  simp only [hk]

/-- Settles O48: the range of codes is the test that the lookup makes. -/
theorem lookupDomain : Obligations.LookupDomain := fun cfg _ =>
  ⟨fun _ => lookup_of_code cfg, lookup_eq_none.2⟩

/-- Without a glyph the operation faults, wherever it was to write (R116). -/
theorem setDigit_of_no_glyph {s : State} {ch : Char} (h : lookup s.cfg ch = none) (pos : Int) (decimal : Bool) :
    setDigit pos ch decimal s = s.withFault (some (.glyphNotFound ch)) := by
  simp only [setDigit, h, raise_eq]

theorem setDigit_of_outside {s : State} (hf : s.fault = none) {ch : Char} {m : BitVec 16} (h : lookup s.cfg ch = some m)
    {pos : Int} (hpos : pos < 0 ∨ 3 < pos) (decimal : Bool) : setDigit pos ch decimal s = s := by
  have hraw := setDigitRaw_of_outside hpos m s
  simp only [setDigit, h]
  rw [andThen_of_running (by rw [hraw, hf]), hraw]
  cases decimal
  · rfl
  · exact setDecimal_of_outside hpos true s

/-- At a position the glyph is stored, then the decimal point if it is asked for (R116). -/
theorem setDigit_of_fin {s : State} (hf : s.fault = none) {ch : Char} {m : BitVec 16} (h : lookup s.cfg ch = some m)
    (p : Fin 4) (decimal : Bool) : setDigit p.val ch decimal s =
      s.withSeg (if decimal then storeDecimal (storeMask s.seg p m) p true else storeMask s.seg p m) := by
  have hraw := setDigitRaw_of_fin p m s
  simp only [setDigit, h]
  rw [andThen_of_running (by rw [hraw, State.withSeg_fault, hf]), hraw]
  cases decimal
  · rfl
  · exact setDecimal_of_fin p true _

/-- Settles O49: by whether the character has a glyph and whether the position is one of the four. -/
theorem setDigitStoresGlyph : Obligations.SetDigitStoresGlyph := by
  intro s pos ch decimal hf
  rw [exec_of_running hf rfl, body]
  refine ⟨fun hm => by rw [setDigit_of_no_glyph hm]; rfl, fun m hm => ⟨?_, fun hpos => by rw [setDigit_of_outside hf hm hpos]⟩⟩
  rintro p rfl
  rw [setDigit_of_fin hf hm]
  refine ⟨_, rfl, rfl, fun j hj => ?_⟩
  cases decimal
  · exact storeMask_get s.seg p m j hj
  · simp only [State.withSeg_seg, if_true, storeDecimal_get, storeMask_get]
    by_cases hhigh : j = 2 * p.val + 1
    · simp [hhigh, maskHi]
    · simp [hhigh, maskLo]

/-! ## Texts -/

/-- Between two segment buffers, each character of a text that lands on a position has been stored there, and the positions that none
lands on have kept their masks (R117 to R119). -/
def TextPlaced (cfg : Config) (start : Int) (text : List Char) (old new : Vector Byte 8) : Prop :=
  ∀ p : Fin 4,
    (∀ (i : Nat) (h : i < text.length), (p.val : Int) = start + i → lookup cfg text[i] = some (readMask new p)) ∧
    ((∀ i : Nat, i < text.length → (p.val : Int) ≠ start + i) → readMask new p = readMask old p)

theorem TextPlaced.nil (cfg : Config) (start : Int) (seg : Vector Byte 8) : TextPlaced cfg start [] seg seg :=
  fun _ => ⟨nofun, fun _ => rfl⟩

/-- A character stored at the start and the rest of the text placed after it is the whole text placed. -/
theorem TextPlaced.cons {cfg : Config} {start : Int} {ch : Char} {rest : List Char} {m : BitVec 16} {old mid new : Vector Byte 8}
    (hm : lookup cfg ch = some m)
    (hmid : ∀ p : Fin 4, readMask mid p = if (p.val : Int) = start then m else readMask old p)
    (h : TextPlaced cfg (start + 1) rest mid new) : TextPlaced cfg start (ch :: rest) old new := by
  intro p
  obtain ⟨hreach, hkeep⟩ := h p
  refine ⟨fun i hi hp => ?_, fun hnone => ?_⟩
  · cases i with
    | zero =>
      have hstart : (p.val : Int) = start := by omega
      rw [hkeep fun j _ => by omega, hmid, if_pos hstart]
      exact hm
    | succ i => exact hreach i (Nat.lt_of_succ_lt_succ hi) (by omega)
  · have hstart : (p.val : Int) ≠ start := by
      simpa using hnone 0 (Nat.succ_pos _)
    have hrest : ∀ i : Nat, i < rest.length → (p.val : Int) ≠ start + 1 + i := fun i hi => by
      have := hnone (i + 1) (Nat.succ_lt_succ hi)
      omega
    rw [hkeep hrest, hmid, if_neg hstart]

/-- Setting a digit with a glyph changes the mask at its position, if it is one of the four, and no other (R116). -/
theorem setDigit_masks {s : State} (hf : s.fault = none) {ch : Char} {m : BitVec 16} (h : lookup s.cfg ch = some m) (pos : Int) :
    ∃ seg, setDigit pos ch false s = s.withSeg seg ∧
      ∀ q : Fin 4, readMask seg q = if (q.val : Int) = pos then m else readMask s.seg q := by
  obtain ⟨p, rfl⟩ | hpos := position_cases pos
  · refine ⟨_, setDigit_of_fin hf h p false, fun q => ?_⟩
    by_cases hq : q = p
    · rw [hq, if_pos rfl]
      exact readMask_storeMask s.seg p m
    · rw [if_neg fun e => hq (Fin.ext (Int.ofNat_inj.1 e))]
      exact readMask_storeMask_ne s.seg p q m hq
  · exact ⟨s.seg, setDigit_of_outside hf h hpos false, fun q => by rw [if_neg (by omega)]⟩

/-- Printing a text whose first characters have glyphs places these, then prints the others from where they end (R117). -/
theorem printFrom_append {s : State} (hf : s.fault = none) (done : List Char) (hdone : ∀ ch ∈ done, lookup s.cfg ch ≠ none)
    (start : Int) : ∃ seg, TextPlaced s.cfg start done s.seg seg ∧
      ∀ rest, printFrom start (done ++ rest) s = printFrom (start + done.length) rest (s.withSeg seg) := by
  induction done generalizing s start with
  | nil => exact ⟨s.seg, .nil s.cfg start s.seg, fun rest => by simp⟩
  | cons ch done ih =>
    obtain ⟨hch, hdone⟩ := List.forall_mem_cons.1 hdone
    obtain ⟨m, hm⟩ := Option.ne_none_iff_exists'.1 hch
    obtain ⟨mid, hdigit, hmid⟩ := setDigit_masks hf hm start
    obtain ⟨seg, hplaced, hprint⟩ := ih (s := s.withSeg mid) hf hdone (start + 1)
    refine ⟨seg, .cons hm hmid hplaced, fun rest => ?_⟩
    have hend : start + ((ch :: done).length : Int) = start + 1 + done.length := by
      rw [List.length_cons]
      omega
    rw [List.cons_append, printFrom, andThen_of_running (by rw [hdigit, State.withSeg_fault, hf]), hdigit, hprint, hend]
    rfl

theorem exec_dispPrintStr {s : State} (hf : s.fault = none) {text : List Char} {jr : Bool}
    (hr : refusesText s.cfg text jr = false) :
    exec (.dispPrintStr text jr) s = .next (printFrom (printStart text jr) text s) :=
  exec_of_running (i := .dispPrintStr text jr) hf hr

/-- Settles O50: the whole text is placed and nothing is left to print. -/
theorem printStrPlacesCharacters : Obligations.PrintStrPlacesCharacters := by
  intro s text jr hf hr htext
  obtain ⟨seg, hplaced, hprint⟩ := printFrom_append hf text htext (printStart text jr)
  refine ⟨s.withSeg seg, ?_, rfl, hplaced⟩
  have hall := hprint []
  rw [List.append_nil] at hall
  rw [exec_dispPrintStr hf hr, hall]
  rfl

/-- Settles O51: the characters with glyphs are placed, and the digit after them faults. -/
theorem printStrFaultsMidway : Obligations.PrintStrFaultsMidway := by
  intro s done rest ch jr hf hr hdone hch
  obtain ⟨seg, hplaced, hprint⟩ := printFrom_append hf done hdone (printStart (done ++ ch :: rest) jr)
  have hfault := setDigit_of_no_glyph (s := s.withSeg seg) hch
  refine ⟨(s.withSeg seg).withFault (some (.glyphNotFound ch)), ?_, rfl, ?_⟩
  · rw [exec_dispPrintStr hf hr, hprint, printFrom, andThen_of_faulted (by rw [hfault]; nofun), hfault]
  · rw [printStart, List.length_append, List.length_cons, ← Nat.add_assoc] at hplaced
    exact hplaced

end Sys2Proof.Machine
end

section
/-! The exception statements (spec/60_exceptions.md): a block past its fault (R130), the fault codes of each operation (R125, R126), and
programs that interleave the two drivers (R140). -/

namespace Sys2Proof.Machine

/-! ## A block past its fault -/

theorem step_of_faulted {s : State} {info : FaultInfo} (h : s.fault = some info) : step s = .fault (.stuck info) := by
  simp only [step, h]

/-- Settles O8: the fault register is looked at before anything else. -/
theorem faultedBlockIsStuck : Obligations.FaultedBlockIsStuck := fun _ _ h =>
  ⟨step_of_faulted h, exec_of_faulted h⟩

/-! ## The fault codes of each operation -/

/-- Inside an operation of a driver whose simulation flag is `v`: the flag still is, and a recorded fault has one of the codes, a code of
1 to 3 only if the flag is clear (R125, R126). -/
structure FaultsWithin (d : Driver) (codes : List Nat) (v : Bool) (s : State) : Prop where
  sim : (s.flags d).sim = v
  code : ∀ info, s.fault = some info → info.code ∈ codes ∧ (info.code ≤ 3 → v = false)

namespace FaultsWithin

variable {d : Driver} {codes : List Nat} {v : Bool}

/-! ### Statements, calls and sequences -/

theorem of_running {s : State} (hf : s.fault = none) : FaultsWithin d codes (s.flags d).sim s where
  sim := rfl
  code info h := by
    rw [hf] at h
    cases h

/-- A statement that changes neither the simulation flag nor the fault register. -/
theorem quiet {f : Op} (hsim : ∀ s, ((f s).flags d).sim = (s.flags d).sim) (hfault : ∀ s, (f s).fault = s.fault) :
    Keeps (FaultsWithin d codes v) f := fun s _ hs =>
  ⟨(hsim s).trans hs.sim, by rw [hfault]; exact hs.code⟩

/-- A check of the operands that raises its own fault, simulated or not. -/
protected theorem raise {info : FaultInfo} {n : Nat} (hn : n ∈ codes) (hcheck : 3 < n) (hcode : info.code = n) :
    Keeps (FaultsWithin d codes v) (raise info) := fun s _ hs =>
  ⟨by cases d <;> exact hs.sim, by rintro _ ⟨rfl⟩; exact ⟨hcode ▸ hn, by omega⟩⟩

/-- A collaborator call, made when the driver is not simulated. -/
theorem call {f : Op} {n : Nat} (hn : n ∈ codes) (hflags : ∀ s, (f s).flags d = s.flags d)
    (hfault : ∀ s, (f s).fault = s.fault ∨ ∃ info, (f s).fault = some info ∧ info.code = n) :
    Keeps (FaultsWithin d codes false) f := fun s _ hs =>
  ⟨by rw [hflags, hs.sim], by
    obtain h | ⟨info, h, hcode⟩ := hfault s <;> rw [h]
    · exact hs.code
    · rintro _ ⟨rfl⟩
      exact ⟨hcode ▸ hn, fun _ => rfl⟩⟩

/-- `PinClaim` raises code 1 (40_lifecycle R80). -/
protected theorem pinClaim (h1 : 1 ∈ codes) (line : Line) : Keeps (FaultsWithin .led codes false) (pinClaim line) :=
  call h1 (fun s => by rw [pinClaim_eq]) fun s => by
    rw [pinClaim_eq]
    cases s.claimAt 0 with
    | ok => exact .inl rfl
    | error e => exact .inr ⟨_, rfl, rfl⟩

/-- `BusOpen` raises code 2 (42_display_controller R103). -/
protected theorem busOpen (h2 : 2 ∈ codes) : Keeps (FaultsWithin .disp codes false) busOpen :=
  call h2 (fun s => by rw [busOpen_eq]) fun s => by
    rw [busOpen_eq]
    cases s.busReplyAt 0 with
    | ok => exact .inl rfl
    | error e => exact .inr ⟨_, rfl, rfl⟩

/-- `BusWrite` raises code 3 (42_display_controller R103, R107). -/
protected theorem busWrite (h3 : 3 ∈ codes) (cmd : State → Byte) (payload : State → List Byte) :
    Keeps (FaultsWithin .disp codes false) fun s => busWrite (cmd s) (payload s) s :=
  call h3 (fun s => busWrite_flags _ _ s .disp) fun s => by
    rw [busWrite_eq]
    cases s.busReplyAt 0 with
    | ok => exact .inl rfl
    | error e => exact .inr ⟨_, rfl, rfl⟩

/-! ### Setting up -/

/-- Setting up acquires the resource only when the driver is not simulated (40_lifecycle R78, R79). -/
theorem ensureSetup_of_acquire (hacquire : Keeps (FaultsWithin d codes false) (acquire d)) :
    Keeps (FaultsWithin d codes v) (ensureSetup d) := fun s hf hs => by
  have hmark {v : Bool} : Keeps (FaultsWithin d codes v) (markSetup d) := quiet (markSetup_sim d) fun s => by cases d <;> rfl
  cases hset : (s.flags d).isSetup with
  | true => rwa [ensureSetup_of_setup hset]
  | false =>
    cases v with
    | true =>
      rw [ensureSetup_of_sim hf hset hs.sim]
      exact hmark s hf hs
    | false =>
      rw [ensureSetup_of_fresh hset hs.sim]
      exact keeps_andThen hacquire hmark s hf hs

theorem ensureSetup_led (h1 : 1 ∈ codes) : Keeps (FaultsWithin .led codes v) (ensureSetup .led) :=
  ensureSetup_of_acquire <| keeps_andThen (.pinClaim h1 .dat) <| keeps_andThen (.pinClaim h1 .clk) <|
    keeps_andThen (.pinClaim h1 .cs) <| keeps_andThen (quiet (fun _ => rfl) fun _ => rfl) <| keeps_ignore _

theorem ensureSetup_disp (h2 : 2 ∈ codes) (h3 : 3 ∈ codes) : Keeps (FaultsWithin .disp codes v) (ensureSetup .disp) :=
  ensureSetup_of_acquire <| keeps_andThen (.busOpen h2) <| keeps_andThen (quiet (fun _ => rfl) fun _ => rfl) <|
    keeps_andThen (.busWrite h3 _ _) <| keeps_andThen (.busWrite h3 _ _) <| keeps_andThen (.busWrite h3 _ _) <| keeps_ignore _

/-- What needs the resource runs only when the driver is not simulated (40_lifecycle R79). -/
protected theorem onWire {f : Op} (hsetup : Keeps (FaultsWithin d codes v) (ensureSetup d))
    (hf : Keeps (FaultsWithin d codes false) f) : Keeps (FaultsWithin d codes v) (onWire d f) :=
  keeps_onWire hsetup fun s hrun _ hsim hs => by
    obtain rfl : v = false := hs.sim.symm.trans hsim
    exact hf s hrun hs

theorem onWire_emit (h1 : 1 ∈ codes) (evs : State → List Event) :
    Keeps (FaultsWithin .led codes v) (onWire .led fun s => emit (evs s) s) :=
  .onWire (ensureSetup_led h1) (quiet (fun _ => rfl) fun _ => rfl)

theorem onWire_busWrite (h2 : 2 ∈ codes) (h3 : 3 ∈ codes) (cmd : State → Byte) (payload : State → List Byte) :
    Keeps (FaultsWithin .disp codes v) (onWire .disp fun s => busWrite (cmd s) (payload s) s) :=
  .onWire (ensureSetup_disp h2 h3) (.busWrite h3 cmd payload)

/-! ### Operations -/

theorem updatePx (f : Vector Pixel 7 → Vector Pixel 7) : Keeps (FaultsWithin .led codes v) fun s => s.withPx (f s.px) :=
  quiet (fun _ => rfl) fun _ => rfl

theorem updateSeg (f : Vector Byte 8 → Vector Byte 8) : Keeps (FaultsWithin .disp codes v) fun s => s.withSeg (f s.seg) :=
  quiet (fun _ => rfl) fun _ => rfl

protected theorem writePixel (index : Nat) (p : Pixel) : Keeps (FaultsWithin .led codes v) (writePixel index p) := by
  unfold Machine.writePixel
  split
  · exact updatePx (·.set index p)
  · exact keeps_ignore _

protected theorem withLevel (h4 : 4 ∈ codes) {q : Brightness} {op : BitVec 5 → Op}
    (hop : ∀ level, Keeps (FaultsWithin .led codes v) (op level)) : Keeps (FaultsWithin .led codes v) (withLevel q op) :=
  fun s hf hs => by
    unfold Machine.withLevel
    split
    · exact hop _ s hf hs
    · exact FaultsWithin.raise (n := 4) h4 (by decide) rfl s hf hs

/-- A setting, in either order (42_display_controller R104). -/
theorem setting (h2 : 2 ∈ codes) (h3 : 3 ∈ codes) {store : Op}
    (hstore : ∀ s, (store s).disp = s.disp ∧ (store s).fault = s.fault) (cmd : State → Byte) :
    Keeps (FaultsWithin .disp codes v) (andThen (storeAndSetup store) (ifNotSim .disp fun s => sendCmd (cmd s) s)) :=
  keeps_setting (quiet (fun s => by rw [flags_disp, (hstore s).1]) fun s => (hstore s).2) (ensureSetup_disp h2 h3) hstore
    fun s ⟨hf, _, hsim⟩ hs => by
      obtain rfl : v = false := hs.sim.symm.trans hsim
      exact FaultsWithin.busWrite h3 cmd (fun _ => []) s hf hs

protected theorem setBlink (code : Byte) : Keeps (FaultsWithin .disp [5, 2, 3] v) (setBlink code) := fun s hf hs => by
  unfold Machine.setBlink
  cases blinkDecode s.cfg code with
  | none => exact FaultsWithin.raise (n := 5) (by decide) (by decide) rfl s hf hs
  | some f => exact setting (by decide) (by decide) (store := storeBlink f) (fun _ => ⟨rfl, rfl⟩) _ s hf hs

protected theorem setDim (level : Byte) : Keeps (FaultsWithin .disp [6, 2, 3] v) (setDim level) := fun s hf hs => by
  unfold Machine.setDim
  split
  · exact FaultsWithin.raise (n := 6) (by decide) (by decide) rfl s hf hs
  · exact setting (by decide) (by decide) (store := storeDim _) (fun _ => ⟨rfl, rfl⟩) _ s hf hs

protected theorem setDigitRaw (pos : Int) (mask : BitVec 16) : Keeps (FaultsWithin .disp codes v) (setDigitRaw pos mask) := by
  unfold Machine.setDigitRaw
  split
  · exact keeps_ignore _
  · exact updateSeg (storeMask · _ mask)

protected theorem setDecimal (pos : Int) (on : Bool) : Keeps (FaultsWithin .disp codes v) (setDecimal pos on) := by
  unfold Machine.setDecimal
  split
  · exact keeps_ignore _
  · exact updateSeg (storeDecimal · _ on)

protected theorem setDigit (pos : Int) (ch : Char) (dp : Bool) : Keeps (FaultsWithin .disp [7] v) (setDigit pos ch dp) :=
  fun s hf hs => by
    unfold Machine.setDigit
    cases lookup s.cfg ch with
    | none => exact FaultsWithin.raise (n := 7) (by decide) (by decide) rfl s hf hs
    | some m =>
      refine keeps_andThen (.setDigitRaw pos m) ?_ s hf hs
      cases dp with
      | true => exact .setDecimal pos true
      | false => exact keeps_ignore _

/-- Every operation but a change of a simulation flag keeps that flag and raises the codes of its row (R125). -/
protected theorem body {i : Instr} (hi : isSetSimulation i = false) : Keeps (FaultsWithin i.driver (allowedCodes i) v) (body i) := by
  cases i with
  | ledSetup => exact ensureSetup_led (.head _)
  | dispSetup => exact ensureSetup_disp (.head _) (.tail _ (.head _))
  | ledSetPixel index _ _ _ _ => exact .withLevel (.head _) fun _ => .writePixel index _
  | ledSetAll r g b _ =>
    exact .withLevel (.head _) fun level => updatePx (mapPixels fun _ => { r := r, g := g, b := b, br := level })
  | ledSetBrightness _ => exact .withLevel (.head _) fun level => updatePx (mapPixels ({ · with br := level }))
  | ledClear => exact updatePx _
  | ledExit => exact keeps_andThen (updatePx _) (onWire_emit (.head _) _)
  | ledShow | ledSof | ledPixelWord _ _ _ _ | ledEof => exact onWire_emit (.head _) _
  | dispSetBlink code => exact .setBlink code
  | dispSetBrightness level => exact .setDim level
  | dispSetDigitRaw pos mask => exact .setDigitRaw pos mask
  | dispSetDecimal pos on => exact .setDecimal pos on
  | dispSetDigit pos ch dp => exact .setDigit pos ch dp
  | dispPrintStr text jr => exact keeps_printFrom (fun pos ch => .setDigit pos ch false) _ text
  | dispWriteDisplay | i2cData _ | i2cOscOn | i2cBlink _ | i2cDim _ =>
    exact onWire_busWrite (.head _) (.tail _ (.head _)) _ _
  | ledSetSimulation _ | dispSetSimulation _ => cases hi

end FaultsWithin

/-- A change of a simulation flag raises code 8 (40_lifecycle R82, R83). -/
theorem changeSim_code {d : Driver} {v : Bool} {s : State} (hf : s.fault = none) {info : FaultInfo}
    (h : (changeSim d v s).fault = some info) : info.code = 8 := by
  unfold changeSim at h
  split at h
  · cases h
    rfl
  · have hquiet : (writeSim d v s).fault = none := by cases d <;> exact hf
    rw [hquiet] at h
    cases h

/-- Settles O19: a change of a simulation flag raises its own code, and every other body keeps `FaultsWithin`. -/
theorem faultCodesOfEachOperation : Obligations.FaultCodesOfEachOperation := by
  intro i s t info hf hst hfault
  obtain ⟨-, -, rfl⟩ := exec_eq_next.1 hst
  cases hi : isSetSimulation i with
  | false => exact (FaultsWithin.body hi s hf (.of_running hf)).code info hfault
  | true =>
    cases i with
    | ledSetSimulation v | dispSetSimulation v =>
      rw [changeSim_code hf hfault]
      exact ⟨.head _, by omega⟩
    | _ => cases hi

/-! ## Interleaving the drivers -/

theorem execAll_cons_of_next {i : Instr} {s t : State} (h : exec i s = .next t) (rest : List Instr) :
    execAll (i :: rest) s = execAll rest t := by
  rw [execAll, h]

/-- A program that answers a next state runs its first instruction to one, and the rest from there. -/
theorem execAll_cons_eq_next {i : Instr} {rest : List Instr} {s t : State} (h : execAll (i :: rest) s = .next t) :
    ∃ m, exec i s = .next m ∧ execAll rest m = .next t := by
  rw [execAll] at h
  cases he : exec i s with
  | next m => exact ⟨m, rfl, by rwa [he] at h⟩
  | fault _ | refused _ =>
    rw [he] at h
    cases h

/-- A program that ends without a fault started without one, for the register is never cleared (R130). -/
theorem running_of_execAll {ops : List Instr} {s t : State} (h : execAll ops s = .next t) (ht : t.fault = none) :
    s.fault = none := by
  cases ops with
  | nil =>
    cases h
    exact ht
  | cons i rest =>
    obtain ⟨m, hi, -⟩ := execAll_cons_eq_next h
    obtain ⟨hs, -, -⟩ := exec_eq_next.1 hi
    exact hs

theorem sameDriver_symm {d : Driver} {s t : State} (h : SameDriver d s t) : SameDriver d t s := by
  cases d <;> (
    obtain ⟨h₁, h₂, h₃, h₄, h₅, h₆⟩ := h
    exact ⟨h₁.symm, h₂.symm, h₃.symm, h₄.symm, h₅.symm, h₆.symm⟩)

/-- A driver that reads the same before an instruction of its own reads the same after it. -/
theorem Agree.exec_own {d : Driver} {i : Instr} (hi : i.driver = d) {u s t : State} (h : Agree d u s) (hst : exec i s = .next t) :
    ∃ v, exec i u = .next v ∧ Agree d v t := by
  obtain ⟨hf, hr, rfl⟩ := exec_eq_next.1 hst
  subst hi
  exact ⟨_, exec_of_running (h.fault.trans hf) (by rwa [h.cfg]), (Confined.body i).alike u s h⟩

/-- An instruction of the other driver that does not fault changes nothing that a driver can read. -/
theorem Agree.exec_other {d : Driver} {i : Instr} (hi : i.driver ≠ d) {u s t : State} (h : Agree d u s) (hst : exec i s = .next t)
    (ht : t.fault = none) : Agree d u t := by
  obtain ⟨hf, -, rfl⟩ := exec_eq_next.1 hst
  obtain ⟨hown, hcfg, hfault⟩ := h
  obtain rfl := (eq_or_eq_otherDriver i.driver d).resolve_left hi.symm
  exact ⟨sameDriver_trans hown (sameDriver_symm ((Confined.body i).frame s)), hcfg.trans (body_cfg i hf).symm,
    (hfault.trans hf).trans ht.symm⟩

/-- A program without the other driver's instructions, from a state that the driver cannot tell apart, ends in one that it cannot tell
apart. -/
theorem Agree.execAll_filter {d : Driver} {ops : List Instr} {u s t : State} (h : Agree d u s) (hst : execAll ops s = .next t)
    (ht : t.fault = none) : ∃ v, execAll (ops.filter fun i => i.driver == d) u = .next v ∧ Agree d v t := by
  induction ops generalizing u s with
  | nil =>
    cases hst
    exact ⟨u, rfl, h⟩
  | cons i rest ih =>
    obtain ⟨m, hi, hrest⟩ := execAll_cons_eq_next hst
    by_cases hd : i.driver = d
    · obtain ⟨v, hv, hagree⟩ := h.exec_own hd hi
      rw [List.filter_cons_of_pos (by simpa using hd), execAll_cons_of_next hv]
      exact ih hagree hrest
    · rw [List.filter_cons_of_neg (by simpa using hd)]
      exact ih (h.exec_other hd hi (running_of_execAll hrest ht)) hrest

/-- Settles O58: the driver's own instructions run from the same state. -/
theorem interleavingIsIndependent : Obligations.InterleavingIsIndependent := by
  intro ops s t d hst ht
  obtain ⟨u, hu, hown, -, hfault⟩ := (agree_refl d s).execAll_filter hst ht
  exact ⟨u, hu, hown, hfault.trans ht⟩

end Sys2Proof.Machine
end

section
/-! The reset and hazards statement (spec/70_reset_and_hazards.md): with no request in the inbox the block waits (R144). -/

namespace Sys2Proof.Machine

theorem nextRequest_of_nil {s : State} (h : s.inbox = []) : nextRequest s = none := by
  simp only [nextRequest, h]

/-- With no fault recorded and no request, a step changes nothing (R144). -/
theorem step_of_empty_inbox {s : State} (hf : s.fault = none) (h : s.inbox = []) : step s = .next s := by
  simp only [step, hf, nextRequest_of_nil h]

/-- Settles O9: an empty inbox gives no request to run, and construction leaves the inbox empty and no fault (R35). -/
theorem emptyInboxWaits : Obligations.EmptyInboxWaits :=
  ⟨fun _ => step_of_empty_inbox, fun _ => step_of_empty_inbox rfl rfl⟩

end Sys2Proof.Machine
end
